-- ==== Sys2Proof/Word.lean ====
section
/-! DEFINITION. The widths of DESCORE's values (00_scope.md R5, R13): every value of the engine is an
unsigned bit vector of one of these widths, and a message, key or block in transit is a sequence of
bytes (R11). -/

namespace Sys2Proof

/-- A byte of an operand or of a result (R11). -/
abbrev Byte := BitVec 8

/-- A 64-bit block, key or header word (R5: BLOCK_BITS; R71). -/
abbrev Word64 := BitVec 64

/-- A 56-bit permuted key, `C || D` (R131). -/
abbrev KeyPair := BitVec 56

/-- A 28-bit key half, `C` or `D` (R5: KEY_HALF_BITS). -/
abbrev KeyHalf := BitVec 28

/-- A 32-bit half-block, `L` or `R` (R5: HALF_BITS). -/
abbrev HalfBlock := BitVec 32

/-- A 48-bit round subkey (R5: SUBKEY_BITS). -/
abbrev Subkey := BitVec 48

/-- The subkey file `KS[0..15]` (R23). -/
abbrev SubkeyFile := Vector Subkey 16

end Sys2Proof
end

