-- ==== Sys2Proof/Machine/Bytes.lean ====
section
/-! DEFINITION. Conversion between bytes and 64-bit values (00_scope.md R12, 20_memory.md R55). -/

namespace Sys2Proof.Machine

/-- `be64(b) = b[0] || b[1] || ... || b[7]` for 8 bytes (R12): byte 0 is the most significant, so it
holds positions 1 to 8. DESIGN CHOICE (log 18), safe: a shorter sequence fills the least significant
bytes, and of a longer one the last 8 bytes are taken. -/
def be64 (b : List Byte) : Word64 :=
  BitVec.ofNat 64 (b.foldl (fun acc x => acc * 256 + x.toNat) 0)

/-- `bytes64(v)[i] = v[63-8i : 56-8i]` (R12), the inverse of `be64`. -/
def bytes64 (v : Word64) : List Byte :=
  [v.extractLsb' 56 8, v.extractLsb' 48 8, v.extractLsb' 40 8, v.extractLsb' 32 8,
   v.extractLsb' 24 8, v.extractLsb' 16 8, v.extractLsb' 8 8, v.extractLsb' 0 8]

/-- `m[off .. off+n)`, the subsequence of `n` bytes at offset `off` (R11). -/
def slice (m : List Byte) (off n : Nat) : List Byte := (m.drop off).take n

end Sys2Proof.Machine
end

