-- ==== Sys2Proof/Syntax.lean ====
section
/-! DEFINITION. The five commands of the opcode map (30_encoding.md R78, opcode_table.json). A command
is its request header: the operation and `LEN`, read as a natural number (R73). Its operand bytes
are data, the store OPND that the command reads (20_memory.md R50). -/

namespace Sys2Proof

/-- A command: one constructor per row of the opcode map (R78), with the header's `LEN`. -/
inductive Instr where
  /-- KEY_LOAD, the source's Construct(key) (R135). -/
  | keyLoad (len : Nat)
  /-- ENC_BLOCK, the source's EncryptBlock (R175). -/
  | encBlock (len : Nat)
  /-- DEC_BLOCK, the source's DecryptBlock (R178). -/
  | decBlock (len : Nat)
  /-- ENC_MSG, the source's Encrypt (R195). -/
  | encMsg (len : Nat)
  /-- DEC_MSG, the source's Decrypt (R199). -/
  | decMsg (len : Nat)
  deriving DecidableEq, Repr

/-- The number of operand bytes the request carries (R71, R73). -/
def Instr.len : Instr → Nat
  | .keyLoad n => n
  | .encBlock n => n
  | .decBlock n => n
  | .encMsg n => n
  | .decMsg n => n

end Sys2Proof
end

