-- ==== Sys2Proof/WellFormed.lean ====
section
/-! DEFINITION. What makes a command and a request well formed: `LEN` fits the header's 32-bit field
(30_encoding.md R71), and a request carries exactly `LEN` operand bytes (R70, R75). -/

namespace Sys2Proof

/-- `LEN` fits the 32-bit field of the header (R71: 0 to 2^32 - 1). -/
abbrev Instr.WellFormed (i : Instr) : Prop := i.len < 2 ^ 32

/-- A command together with operand bytes is a whole request: the header is well formed and exactly
`LEN` bytes follow it (R70, R75). -/
abbrev RequestWellFormed (i : Instr) (operand : List Byte) : Prop :=
  i.WellFormed ∧ operand.length = i.len

end Sys2Proof
end

