-- ==== Sys2Proof/Decode.lean ====
section
/-! DEFINITION. Request headers read and written (30_encoding.md R71 to R75, R78 to R80). A request is
8 header bytes, most significant first (R74), then `LEN` operand bytes. -/

namespace Sys2Proof

open Sys2Proof.Machine (be64 bytes64)

/-- Why a byte string spells no command. `truncated`: fewer than the 8 header bytes. The other two are
the illegal encodings of R80. -/
inductive DecodeError where
  | truncated
  | reservedBitsSet
  | unassignedOpcode
  deriving DecidableEq, Repr

/-- `LEN = header[63:32]`, an unsigned natural number (R73). -/
def headerLen (h : Word64) : Nat := (h.extractLsb' 32 32).toNat

/-- `RSV = header[31:8]` (R73). -/
def headerRsv (h : Word64) : BitVec 24 := h.extractLsb' 8 24

/-- `OP = header[7:0]` (R73). -/
def headerOp (h : Word64) : BitVec 8 := h.extractLsb' 0 8

/-- The operation an OP value selects (R78); every other value is unassigned (R80). -/
def decodeOp (op : BitVec 8) (len : Nat) : Option Instr :=
  if op = 0x01#8 then some (.keyLoad len)
  else if op = 0x02#8 then some (.encBlock len)
  else if op = 0x03#8 then some (.decBlock len)
  else if op = 0x04#8 then some (.encMsg len)
  else if op = 0x05#8 then some (.decMsg len)
  else none

/-- The command a header word spells: RSV must be zero and OP assigned (R79, R80). -/
def decodeHeader (h : Word64) : Except DecodeError Instr :=
  if headerRsv h ≠ 0#24 then .error .reservedBitsSet
  else match decodeOp (headerOp h) (headerLen h) with
    | some i => .ok i
    | none => .error .unassignedOpcode

/-- The header word of a request and the bytes that follow it (R74, R75); none when the header itself
is not whole. -/
def splitRequest : List Byte → Option (Word64 × List Byte)
  | b0 :: b1 :: b2 :: b3 :: b4 :: b5 :: b6 :: b7 :: rest =>
    some (be64 [b0, b1, b2, b3, b4, b5, b6, b7], rest)
  | _ => none

/-- The command at the start of a byte string, and the bytes after its header. -/
def decode (bytes : List Byte) : Except DecodeError (Instr × List Byte) :=
  match splitRequest bytes with
  | none => .error .truncated
  | some (h, rest) =>
    match decodeHeader h with
    | .ok i => .ok (i, rest)
    | .error e => .error e

/-- The OP value of a command (R78). -/
def Instr.opcode : Instr → BitVec 8
  | .keyLoad _ => 0x01#8
  | .encBlock _ => 0x02#8
  | .decBlock _ => 0x03#8
  | .encMsg _ => 0x04#8
  | .decMsg _ => 0x05#8

/-- The header word `LEN[63:32] RSV[31:8] = 0 OP[7:0]` of a command (R71). -/
def encodeHeader (i : Instr) : Word64 := BitVec.ofNat 32 i.len ++ 0#24 ++ i.opcode

/-- The 8 header bytes of a command (R74). -/
def encode (i : Instr) : List Byte := bytes64 (encodeHeader i)

/-- A whole request as it stands on the byte stream: the header, then the operand (R74). -/
def encodeRequest (i : Instr) (operand : List Byte) : List Byte := encode i ++ operand

/-- The header word among the bits of a table word: bits 63 to 0, those above `nbits` zero. -/
def tableHeader (nbits w : Nat) : Word64 := BitVec.ofNat 64 (w % 2 ^ nbits)

/-- The operand bytes that follow the header in a table word: byte `k` is bits 71+8k to 64+8k, those
above `nbits` zero, as many as the header's LEN says. -/
def tableOperand (nbits w : Nat) : List Byte :=
  (List.range (headerLen (tableHeader nbits w))).map
    fun k => BitVec.ofNat 8 ((w % 2 ^ nbits) >>> (64 + 8 * k))

/-- The bytes of the request a table word stands for, in the order the port carries them (R74). -/
def tableRequest (nbits w : Nat) : List Byte :=
  bytes64 (tableHeader nbits w) ++ tableOperand nbits w

/-- The command the decoder reads from a table word. -/
def decodeTableWord (nbits w : Nat) : Option Instr :=
  match decode (tableRequest nbits w) with
  | .ok (i, _) => some i
  | .error _ => none

end Sys2Proof
end

