-- ==== Sys2Proof/Config.lean ====
section
/-! DEFINITION. The configuration record of the engine (10_state.md, 00_scope.md R5): the fixed tables,
the largest message length and what an empty decryption does. The spec makes each an argument of the
model; the record is carried in `State.cfg`, which no step writes (log 1). -/

namespace Sys2Proof

/-- The fixed tables (R6, R34). An entry of a permutation table is a POSITION, numbered from 1 at the
most significant end (R8), as the spec prints it. -/
structure Tables where
  /-- IP, the initial permutation (R102). -/
  ip : Vector Nat 64
  /-- FP, the final permutation (R103). -/
  fp : Vector Nat 64
  /-- E, the expansion (R104). -/
  e : Vector Nat 48
  /-- P, the round permutation (R105). -/
  p : Vector Nat 32
  /-- PC-1, the key permutation (R106). -/
  pc1 : Vector Nat 56
  /-- PC-2, the subkey permutation (R107). -/
  pc2 : Vector Nat 48
  /-- SHIFTS, one rotation amount per round (R108); entry 0 is round 1. -/
  shifts : Vector Nat 16
  /-- S1 to S8 as tables 0 to 7, each 4 rows of 16 values (R109, R111 to R118). -/
  sboxes : Vector (Vector (Vector (BitVec 4) 16) 4) 8
  deriving DecidableEq, Repr

/-- What DEC_MSG of an empty ciphertext does (R5: EMPTY_DECRYPT; R203). -/
inductive EmptyDecrypt where
  /-- The default: the fatal violation FATAL_EMPTY_INPUT. -/
  | fatal
  /-- STATUS OK with no result bytes. -/
  | returnEmpty
  deriving DecidableEq, Repr

/-- The configuration of an engine (10_state.md). -/
structure Config where
  /-- TABLES (R5, R34). -/
  tables : Tables
  /-- MAX_MSG_LEN (R5), an OPEN parameter. -/
  maxMsgLen : Nat
  /-- EMPTY_DECRYPT (R5), an OPEN parameter with the default `fatal`. -/
  emptyDecrypt : EmptyDecrypt
  deriving DecidableEq, Repr

/-- DESIGN CHOICE (log 2), safe: MAX_MSG_LEN is OPEN and the spec states no value (R5, U3), so what it
is beyond its lower bound 16 is a constant without a body, of the type that holds exactly the amounts
the bounds allow: 16 + 4294967271 = 2^32 - 9. -/
opaque Config.maxMsgLenAbove16 : Fin 4294967272

end Sys2Proof
end

