-- ==== Sys2Proof/Machine/Tables.lean ====
section
/-! DEFINITION. The default tables FIPS46 as 40_tables_and_primitives.md R102 to R118 print them, what a
legal table record and a legal configuration are (R119, 00_scope.md R5), and the configuration an
engine has at reset. -/

namespace Sys2Proof.Machine

/-- S1 to S8, rows 0 to 3 of each (R111 to R118). -/
def fips46Sboxes : Vector (Vector (Vector (BitVec 4) 16) 4) 8 :=
  #v[#v[#v[14, 4, 13, 1, 2, 15, 11, 8, 3, 10, 6, 12, 5, 9, 0, 7],
       #v[0, 15, 7, 4, 14, 2, 13, 1, 10, 6, 12, 11, 9, 5, 3, 8],
       #v[4, 1, 14, 8, 13, 6, 2, 11, 15, 12, 9, 7, 3, 10, 5, 0],
       #v[15, 12, 8, 2, 4, 9, 1, 7, 5, 11, 3, 14, 10, 0, 6, 13]],
     #v[#v[15, 1, 8, 14, 6, 11, 3, 4, 9, 7, 2, 13, 12, 0, 5, 10],
       #v[3, 13, 4, 7, 15, 2, 8, 14, 12, 0, 1, 10, 6, 9, 11, 5],
       #v[0, 14, 7, 11, 10, 4, 13, 1, 5, 8, 12, 6, 9, 3, 2, 15],
       #v[13, 8, 10, 1, 3, 15, 4, 2, 11, 6, 7, 12, 0, 5, 14, 9]],
     #v[#v[10, 0, 9, 14, 6, 3, 15, 5, 1, 13, 12, 7, 11, 4, 2, 8],
       #v[13, 7, 0, 9, 3, 4, 6, 10, 2, 8, 5, 14, 12, 11, 15, 1],
       #v[13, 6, 4, 9, 8, 15, 3, 0, 11, 1, 2, 12, 5, 10, 14, 7],
       #v[1, 10, 13, 0, 6, 9, 8, 7, 4, 15, 14, 3, 11, 5, 2, 12]],
     #v[#v[7, 13, 14, 3, 0, 6, 9, 10, 1, 2, 8, 5, 11, 12, 4, 15],
       #v[13, 8, 11, 5, 6, 15, 0, 3, 4, 7, 2, 12, 1, 10, 14, 9],
       #v[10, 6, 9, 0, 12, 11, 7, 13, 15, 1, 3, 14, 5, 2, 8, 4],
       #v[3, 15, 0, 6, 10, 1, 13, 8, 9, 4, 5, 11, 12, 7, 2, 14]],
     #v[#v[2, 12, 4, 1, 7, 10, 11, 6, 8, 5, 3, 15, 13, 0, 14, 9],
       #v[14, 11, 2, 12, 4, 7, 13, 1, 5, 0, 15, 10, 3, 9, 8, 6],
       #v[4, 2, 1, 11, 10, 13, 7, 8, 15, 9, 12, 5, 6, 3, 0, 14],
       #v[11, 8, 12, 7, 1, 14, 2, 13, 6, 15, 0, 9, 10, 4, 5, 3]],
     #v[#v[12, 1, 10, 15, 9, 2, 6, 8, 0, 13, 3, 4, 14, 7, 5, 11],
       #v[10, 15, 4, 2, 7, 12, 9, 5, 6, 1, 13, 14, 0, 11, 3, 8],
       #v[9, 14, 15, 5, 2, 8, 12, 3, 7, 0, 4, 10, 1, 13, 11, 6],
       #v[4, 3, 2, 12, 9, 5, 15, 10, 11, 14, 1, 7, 6, 0, 8, 13]],
     #v[#v[4, 11, 2, 14, 15, 0, 8, 13, 3, 12, 9, 7, 5, 10, 6, 1],
       #v[13, 0, 11, 7, 4, 9, 1, 10, 14, 3, 5, 12, 2, 15, 8, 6],
       #v[1, 4, 11, 13, 12, 3, 7, 14, 10, 15, 6, 8, 0, 5, 9, 2],
       #v[6, 11, 13, 8, 1, 4, 10, 7, 9, 5, 0, 15, 14, 2, 3, 12]],
     #v[#v[13, 2, 8, 4, 6, 15, 11, 1, 10, 9, 3, 14, 5, 0, 12, 7],
       #v[1, 15, 13, 8, 10, 3, 7, 4, 12, 5, 6, 11, 0, 14, 9, 2],
       #v[7, 11, 4, 1, 9, 12, 14, 2, 0, 6, 10, 13, 15, 3, 5, 8],
       #v[2, 1, 14, 7, 4, 10, 8, 13, 15, 12, 9, 0, 3, 5, 6, 11]]]

/-- The rotation schedule: rounds 1, 2, 9 and 16 shift by 1, all others by 2 (R108). -/
def fips46Shifts : Vector Nat 16 := #v[1, 1, 2, 2, 2, 2, 2, 2, 1, 2, 2, 2, 2, 2, 2, 1]

/-- The default table record FIPS46 (R5, R102 to R118; 92_eei_decisions.md D8). -/
def fips46 : Tables where
  ip :=
    #v[58, 50, 42, 34, 26, 18, 10, 2,
       60, 52, 44, 36, 28, 20, 12, 4,
       62, 54, 46, 38, 30, 22, 14, 6,
       64, 56, 48, 40, 32, 24, 16, 8,
       57, 49, 41, 33, 25, 17, 9, 1,
       59, 51, 43, 35, 27, 19, 11, 3,
       61, 53, 45, 37, 29, 21, 13, 5,
       63, 55, 47, 39, 31, 23, 15, 7]
  fp :=
    #v[40, 8, 48, 16, 56, 24, 64, 32,
       39, 7, 47, 15, 55, 23, 63, 31,
       38, 6, 46, 14, 54, 22, 62, 30,
       37, 5, 45, 13, 53, 21, 61, 29,
       36, 4, 44, 12, 52, 20, 60, 28,
       35, 3, 43, 11, 51, 19, 59, 27,
       34, 2, 42, 10, 50, 18, 58, 26,
       33, 1, 41, 9, 49, 17, 57, 25]
  e :=
    #v[32, 1, 2, 3, 4, 5,
       4, 5, 6, 7, 8, 9,
       8, 9, 10, 11, 12, 13,
       12, 13, 14, 15, 16, 17,
       16, 17, 18, 19, 20, 21,
       20, 21, 22, 23, 24, 25,
       24, 25, 26, 27, 28, 29,
       28, 29, 30, 31, 32, 1]
  p :=
    #v[16, 7, 20, 21,
       29, 12, 28, 17,
       1, 15, 23, 26,
       5, 18, 31, 10,
       2, 8, 24, 14,
       32, 27, 3, 9,
       19, 13, 30, 6,
       22, 11, 4, 25]
  pc1 :=
    #v[57, 49, 41, 33, 25, 17, 9,
       1, 58, 50, 42, 34, 26, 18,
       10, 2, 59, 51, 43, 35, 27,
       19, 11, 3, 60, 52, 44, 36,
       63, 55, 47, 39, 31, 23, 15,
       7, 62, 54, 46, 38, 30, 22,
       14, 6, 61, 53, 45, 37, 29,
       21, 13, 5, 28, 20, 12, 4]
  pc2 :=
    #v[14, 17, 11, 24, 1, 5,
       3, 28, 15, 6, 21, 10,
       23, 19, 12, 4, 26, 8,
       16, 7, 27, 20, 13, 2,
       41, 52, 31, 37, 47, 55,
       30, 40, 51, 45, 33, 48,
       44, 49, 39, 56, 34, 53,
       46, 42, 50, 36, 29, 32]
  shifts := fips46Shifts
  sboxes := fips46Sboxes

/-- A list of positions names every position `1..n` exactly once. -/
abbrev listsEachOnce (n : Nat) (positions : List Nat) : Prop :=
  ∀ i : Fin n, positions.count (i.val + 1) = 1

/-- The invariants of R119 on IP and FP: each lists every position 1..64 exactly once, and FP is the
inverse of IP, `IP[FP[i]] = i` for every `i` (R103). -/
abbrev blockTablesValid (T : Tables) : Prop :=
  listsEachOnce 64 T.ip.toList ∧ listsEachOnce 64 T.fp.toList ∧
    ∀ i : Fin 64, T.ip.toList.getD (T.fp.toList.getD i.val 0 - 1) 0 = i.val + 1

/-- The invariants of R119 on E and P: E lists only positions 1..32, each at least once and 16 of them
twice; P lists every position 1..32 exactly once. -/
abbrev roundTablesValid (T : Tables) : Prop :=
  (∀ q ∈ T.e.toList, 1 ≤ q ∧ q ≤ 32) ∧ (∀ i : Fin 32, i.val + 1 ∈ T.e.toList) ∧
    ((List.finRange 32).filter fun i => T.e.toList.count (i.val + 1) = 2).length = 16 ∧
    listsEachOnce 32 T.p.toList

/-- The invariants of R119 on PC-1, PC-2 and SHIFTS: 56 distinct positions in 1..64, none a multiple of
8; 48 distinct positions in 1..56; 16 shifts, each 1 or 2, summing to 28. -/
abbrev keyTablesValid (T : Tables) : Prop :=
  (T.pc1.toList.Nodup ∧ ∀ q ∈ T.pc1.toList, 1 ≤ q ∧ q ≤ 64 ∧ q % 8 ≠ 0) ∧
    (T.pc2.toList.Nodup ∧ ∀ q ∈ T.pc2.toList, 1 ≤ q ∧ q ≤ 56) ∧
    (∀ k ∈ T.shifts.toList, k = 1 ∨ k = 2) ∧ T.shifts.toList.sum = 28

/-- The invariant of R119 on the S-boxes: every row is a permutation of 0..15. -/
abbrev sboxTablesValid (T : Tables) : Prop :=
  ∀ (j : Fin 8) (row : Fin 4) (x : Fin 16),
    ((T.sboxes.get j).get row).toList.count (BitVec.ofFin x) = 1

/-- The table invariants of R119, a property of the configuration, never a runtime check (R101). -/
def tablesValid (T : Tables) : Prop :=
  blockTablesValid T ∧ roundTablesValid T ∧ keyTablesValid T ∧ sboxTablesValid T

/-- A legal configuration (R5): valid tables and 16 <= MAX_MSG_LEN <= 2^32 - 9. -/
def configValid (c : Config) : Prop :=
  tablesValid c.tables ∧ 16 ≤ c.maxMsgLen ∧ c.maxMsgLen ≤ 2 ^ 32 - 9

/-- The configuration at reset: the default tables and EMPTY_DECRYPT of R5 (log 3, log 4), and a
MAX_MSG_LEN of which nothing is known but its bounds (DESIGN CHOICE, log 2, safe). -/
def initialConfig : Config where
  tables := fips46
  maxMsgLen := Config.maxMsgLenAbove16.val + 16
  emptyDecrypt := .fatal

end Sys2Proof.Machine
end

