-- ==== Sys2Proof/Machine/State.lean ====
section
/-! DEFINITION. The state of the engine and of its command port as plain data, the reasons a step can
stop, and the state after reset (10_state.md R22 to R27, R36; 20_memory.md R50; 30_encoding.md R70,
R77, R83). -/

namespace Sys2Proof.Machine

/-- The status codes of a response by name (30_encoding.md R77). -/
inductive Status where
  /-- 0x00, the command completed. -/
  | ok
  /-- 0x01, recoverable: OP not assigned, or RSV not zero (R80). -/
  | errIllegalCommand
  /-- 0x02, recoverable: a crypto command while KEY_VALID = 0 (60_exceptions.md R224). -/
  | errNoKey
  /-- 0x03, recoverable: KEY_LOAD with LEN not 8 (R135). -/
  | errKeyLength
  /-- 0x04, recoverable: ENC_MSG or DEC_MSG with LEN > MAX_MSG_LEN (R195, R199). -/
  | errLengthLimit
  /-- 0x80, fatal: ENC_BLOCK or DEC_BLOCK with LEN not 8 (R175, R178). -/
  | fatalBlockLength
  /-- 0x81, fatal: DEC_MSG with LEN mod 8 not 0 (R199). -/
  | fatalMsgLength
  /-- 0x82, fatal: DEC_MSG with LEN = 0 when EMPTY_DECRYPT = Fatal (R199, R203). -/
  | fatalEmptyInput
  deriving DecidableEq, Repr

/-- One interaction the host starts (30_encoding.md R83). DESIGN CHOICE (log 6), safe: the host's
requests and reset signals stand in the state as a list, oldest first. -/
inductive HostInput where
  /-- A request as the bytes that arrive on the port: 8 header bytes, then the operand (R74). -/
  | request (bytes : List Byte)
  /-- The reset signal, asserted between commands (70_reset_and_hazards.md R250). -/
  | reset
  deriving DecidableEq, Repr

/-- A response: the 64-bit response header and the result bytes (R72, R76). -/
structure Response where
  header : Word64
  bytes : List Byte
  deriving DecidableEq, Repr

/-- The direction of a block transformation (43_block_core.md R174). -/
inductive Direction where
  | enc
  | dec
  deriving DecidableEq, Repr

/-- The machine: the engine's persistent state (R27), the stores of its port, and its configuration. -/
structure State where
  /-- KEY_VALID, 1 when a KEY_LOAD has succeeded since reset (R22). -/
  keyValid : Bool
  /-- KS[0..15], the subkey register file (R23). -/
  ks : SubkeyFile
  /-- HALTED, 1 after a fatal contract violation (R26). -/
  halted : Bool
  /-- OPND, the operand bytes of the current request (R50); empty between commands (R66). -/
  opnd : List Byte
  /-- What the host has issued and the engine has not taken, oldest first (R83; log 6). -/
  inbox : List HostInput
  /-- The responses delivered to the host, oldest first (R76, R83; log 6). The engine never reads it. -/
  outbox : List Response
  /-- The configuration (10_state.md, R84). No step writes it (R6, R34; log 1). -/
  cfg : Config
  deriving DecidableEq, Repr

/-- Why the machine stops with a fault. -/
inductive Fault where
  /-- Raised by a step, and by every command, while HALTED = 1 and no reset follows: the engine has no
  step then, and a model treats reaching HALTED as a fault (60_exceptions.md R223). Safe. -/
  | halted
  deriving DecidableEq, Repr

/-- Why a step is refused: what the host did is outside the spec's host contract. -/
inductive Refusal where
  /-- Raised by an arm of `exec` for an instruction that has no meaning yet; no arm does. Safe. -/
  | notModelled (mnemonic : String)
  /-- Raised by a step, and by every command, when fewer bytes than the header and LEN operand bytes
  have arrived: such a request is never started (70_reset_and_hazards.md R256; U7). Safe. -/
  | incompleteRequest
  /-- Raised by a step, and by every command, when more bytes than the header and LEN operand bytes
  stand in one request: they would be a second request sent before the response
  (70_reset_and_hazards.md R255; U8). Safe. -/
  | overlongRequest
  deriving DecidableEq, Repr

/-- What the engine finds at its port when it takes a step. -/
inductive Fetched where
  /-- No request: the engine is idle (60_exceptions.md R236). -/
  | idle
  /-- The reset signal, and what the host issues after it (R250). -/
  | reset (rest : List HostInput)
  /-- HALTED = 1 and no reset: no step is enabled (R223). -/
  | stuck
  /-- Bytes that are not one whole request (R75). -/
  | malformed (why : Refusal)
  /-- A whole request: its header, and the state that holds its operand in OPND. -/
  | request (header : Word64) (s : State)
  deriving DecidableEq, Repr

/-- The machine after reset: KEY_VALID = 0, HALTED = 0, no request pending (R36, R250). KS is
unspecified there; DESIGN CHOICE (log 5), unsafe: it is all zero. -/
def State.reset : State where
  keyValid := false
  ks := Vector.replicate 16 0#48
  halted := false
  opnd := []
  inbox := []
  outbox := []
  cfg := initialConfig

end Sys2Proof.Machine
end

