-- ==== Sys2Proof/Machine/Flags.lean ====
section
/-! DEFINITION. The two flags of the engine, the only 1-bit state it has (10_state.md R22, R26, R35), and
the tests a command makes on the flags and on its LEN (60_exceptions.md R225). No command produces a
carry, an overflow or a comparison result (R35). -/

namespace Sys2Proof.Machine

/-- `KEY_VALID <- 1`, by a successful KEY_LOAD only (R22). -/
def State.setKeyValid (s : State) : State := { s with keyValid := true }

/-- `HALTED <- 1`, by a fatal violation only (R26). -/
def State.setHalted (s : State) : State := { s with halted := true }

/-- LEN of a key or of a block command is 8 (R135, R175, R178). -/
abbrev isBlockLength (len : Nat) : Prop := len = 8

/-- LEN of a message exceeds MAX_MSG_LEN (R195, R199). -/
abbrev overLengthLimit (c : Config) (len : Nat) : Prop := c.maxMsgLen < len

/-- The 8-bit code of a status (30_encoding.md R77). -/
def statusCode : Status → BitVec 8
  | .ok => 0x00#8
  | .errIllegalCommand => 0x01#8
  | .errNoKey => 0x02#8
  | .errKeyLength => 0x03#8
  | .errLengthLimit => 0x04#8
  | .fatalBlockLength => 0x80#8
  | .fatalMsgLength => 0x81#8
  | .fatalEmptyInput => 0x82#8

/-- A status is fatal when bit 7 of its code is set (R77, 60_exceptions.md R220). -/
def isFatal (st : Status) : Bool := (statusCode st).getLsbD 7

end Sys2Proof.Machine
end

