-- ==== Sys2Proof/Machine/Operands.lean ====
section
/-! DEFINITION. How a command reads its operand and builds its result (00_scope.md R13; 20_memory.md R50
to R52): MemRead on OPND, MemWrite on RES. -/

namespace Sys2Proof.Machine

/-- `MemRead(off, n) = OPND[off .. off+n)` (R13, R51). DESIGN CHOICE (log 18), safe: a read past the end
gives the bytes that are there. -/
def memRead (s : State) (off n : Nat) : List Byte := slice s.opnd off n

/-- RES, with the length the command's rule fixes, before any byte of it is written. Every byte is
written before the response is produced (R52), so what it holds here never leaves the engine. -/
def newRes (n : Nat) : List Byte := List.replicate n 0#8

/-- `MemWrite(off, n, v)`: bytes `off` to `off+n-1` of RES become `v`, whose length is `n` (R13).
DESIGN CHOICE (log 18), safe: a write past the end lengthens RES, from its
end when `off` is above it. -/
def memWrite (res : List Byte) (off : Nat) (v : List Byte) : List Byte :=
  res.take off ++ v ++ res.drop (off + v.length)

/-- The `j`-th block of a message, `m[8j .. 8j+8)` (R56). -/
def block (m : List Byte) (j : Nat) : List Byte := slice m (8 * j) 8

end Sys2Proof.Machine
end

