-- ==== Sys2Proof/Machine/Ops.lean ====
section
/-! DEFINITION. The named operations of the engine: writing state, responding, raising a recoverable or
a fatal error (the engine's exceptions, 60_exceptions.md), leaving HALTED by reset
(70_reset_and_hazards.md R250), taking a request from the port, and what the host can do. -/

namespace Sys2Proof.Machine

/-- `KS[0..15] <- k`, all 16 registers at once (10_state.md R24). -/
def State.setKs (s : State) (k : SubkeyFile) : State := { s with ks := k }

/-- OPND becomes the given bytes. -/
def State.setOpnd (s : State) (b : List Byte) : State := { s with opnd := b }

/-- What the host has issued and the engine has not taken. -/
def State.setInbox (s : State) (l : List HostInput) : State := { s with inbox := l }

/-- Deliver one response, after those delivered before it (20_memory.md R61). -/
def State.pushResponse (s : State) (r : Response) : State := { s with outbox := s.outbox ++ [r] }

/-- The response header `LEN[63:32] RSV[31:8] = 0 STATUS[7:0]` (30_encoding.md R72). DESIGN CHOICE
(log 12), unsafe outside legal configurations: a length of 2^32 or more is cut to its low 32 bits. -/
def responseHeader (st : Status) (len : Nat) : Word64 :=
  BitVec.ofNat 32 len ++ 0#24 ++ statusCode st

/-- The response a status and a result make (R72, R76). -/
def responseOf (st : Status) (res : List Byte) : Response := ⟨responseHeader st res.length, res⟩

/-- The bytes of a response on a byte stream, the header most significant byte first (R74). -/
def responseBytes (r : Response) : List Byte := bytes64 r.header ++ r.bytes

/-- `respond(status, res)` ends the command: the response is delivered (R76), and the engine keeps
neither the operand nor the result (20_memory.md R66). -/
def respond (st : Status) (res : List Byte) (s : State) : State :=
  (s.pushResponse (responseOf st res)).setOpnd []

/-- `raise Recoverable(code)`: a response with the code and no result, and no other state change
(60_exceptions.md R221). -/
def raiseRecoverable (code : Status) (s : State) : State := respond code [] s

/-- `raise Fatal(code)`: a response with the code and no result, and `HALTED <- 1`
(60_exceptions.md R222). This is the engine's whole trap entry: it saves nothing (R228). -/
def raiseFatal (code : Status) (s : State) : State := (respond code [] s).setHalted

/-- The reset signal, the only return from HALTED (60_exceptions.md R229): KEY_VALID = 0, HALTED = 0, no
request pending, KS as after power-on (R36, R250, R251; log 5). It produces no response; what the host
issues after it, `rest`, and what was delivered before it are the host's (log 16). -/
def applyReset (rest : List HostInput) (s : State) : State :=
  { State.reset with cfg := s.cfg, inbox := rest, outbox := s.outbox }

/-- A command starts only when HALTED = 0 (60_exceptions.md R225 line 0) and its whole operand, exactly
LEN bytes, has arrived (30_encoding.md R75). -/
def whenStarted (len : Nat) (s : State) (command : Host.Outcome State Fault Refusal) :
    Host.Outcome State Fault Refusal :=
  if s.halted then .fault .halted
  else if s.opnd.length < len then .refused .incompleteRequest
  else if len < s.opnd.length then .refused .overlongRequest
  else command

/-- What the engine finds at the head of its port. A request is complete when its 8 header bytes and
exactly LEN operand bytes are there, whatever the header spells (R75). While HALTED the request at the
head stays unanswered, and a reset that follows it discards it (R223, R250; log 8). -/
def fetch (s : State) : Fetched :=
  match s.inbox with
  | [] => if s.halted then .stuck else .idle
  | .reset :: rest => .reset rest
  | .request bytes :: rest =>
    if s.halted then
      match rest with
      | .reset :: rest' => .reset rest'
      | _ => .stuck
    else
      match splitRequest bytes with
      | none => .malformed .incompleteRequest
      | some (h, operand) =>
        if operand.length < headerLen h then .malformed .incompleteRequest
        else if headerLen h < operand.length then .malformed .overlongRequest
        else .request h ((s.setInbox rest).setOpnd operand)

/-- The host issues a request: a header and its operand bytes, byte by byte (R74, R83). -/
def hostRequest (i : Instr) (operand : List Byte) (s : State) : State :=
  s.setInbox (s.inbox ++ [.request (encodeRequest i operand)])

/-- The host issues bytes of its choice as one request, legal or not (R83; RAW of R82). -/
def hostRaw (bytes : List Byte) (s : State) : State :=
  s.setInbox (s.inbox ++ [.request bytes])

/-- The host asserts reset (R83, R250). -/
def hostReset (s : State) : State := s.setInbox (s.inbox ++ [.reset])

/-- A request placed where the engine takes its next one, on an engine that takes requests (log 11). -/
def placeRequest (bytes : List Byte) (s : State) : State :=
  { s with inbox := .request bytes :: s.inbox, halted := false }

end Sys2Proof.Machine
end

