-- ==== Sys2Proof/Machine/Permutation.lean ====
section
/-! DEFINITION. Components 1 and 2 of the engine: the Bit-Permutation Engine and the Substitution Table
Bank (40_tables_and_primitives.md R100, R101, R109, R110). -/

namespace Sys2Proof.Machine

/-- `permute(v, n, T)`: the bit at position `i` of the result, from its most significant end, is the bit
at position `T[i]` of the input, that is `v[n - T[i]]` (R100). The result is as wide as the table is
long. It is built from the most significant bit down. DESIGN CHOICE (log 12), unsafe outside valid
tables: position 0 reads a 0, and a position above `n` reads `v[0]`, since `n - T[i]` is then 0. -/
def permute {n m : Nat} (T : Vector Nat m) (v : BitVec n) : BitVec m :=
  BitVec.ofNat m (T.toList.foldl (fun acc p => 2 * acc + (v.getLsbD (n - p)).toNat) 0)

/-- `sbox(j, row, col)`, the entry of table index `j` at the row and column (R109). -/
def sbox (T : Tables) (j : Fin 8) (row : BitVec 2) (col : BitVec 4) : BitVec 4 :=
  (T.sboxes.get j |>.get row.toFin).get col.toFin

/-- `row(x) = x[5] || x[0]` (R110). -/
def sboxRow (x : BitVec 6) : BitVec 2 := x.extractLsb' 5 1 ++ x.extractLsb' 0 1

/-- `col(x) = x[4:1]` (R110). -/
def sboxCol (x : BitVec 6) : BitVec 4 := x.extractLsb' 1 4

/-- `S_j(x) = sbox(j, row(x), col(x))` (R110). -/
def substitute (T : Tables) (j : Fin 8) (x : BitVec 6) : BitVec 4 :=
  sbox T j (sboxRow x) (sboxCol x)

end Sys2Proof.Machine
end

