-- ==== Sys2Proof/Machine/KeySchedule.lean ====
section
/-! DEFINITION. Component 3, the Key Schedule Generator, and KEY_LOAD (41_key_schedule.md R130 to R138). -/

namespace Sys2Proof.Machine

/-- `rotl_28(x, s) = x[27-s:0] || x[27:28-s]`, the circular left rotation within 28 bits (R10).
DESIGN CHOICE (log 12), unsafe outside valid tables: any other `s` rotates by `s mod 28`. -/
def rotl28 (x : KeyHalf) (s : Nat) : KeyHalf := x.rotateLeft s

/-- `SHIFTS[i]`, the rotation amount of round `i`, 1 to 16 (R108). DESIGN CHOICE (log 18), safe:
0 above round 16, and round 1's amount for 0. -/
def shiftOf (T : Tables) (i : Nat) : Nat := T.shifts.toList.getD (i - 1) 0

/-- `CD0`, the permuted key (R130). -/
def permutedKey (T : Tables) (key : List Byte) : KeyPair := permute T.pc1 (be64 key)

/-- `C0 = CD0[55:28]`, the left half (R131). -/
def leftHalf (cd : KeyPair) : KeyHalf := cd.extractLsb' 28 28

/-- `D0 = CD0[27:0]`, the right half (R131). -/
def rightHalf (cd : KeyPair) : KeyHalf := cd.extractLsb' 0 28

/-- The half after round `i`: round `i` rotates what round `i-1` left, `x_i = rotl_28(x_{i-1},
SHIFTS[i])`, starting from `x_0` (R132). -/
def keyHalf (T : Tables) (x0 : KeyHalf) : Nat → KeyHalf
  | 0 => x0
  | i + 1 => rotl28 (keyHalf T x0 i) (shiftOf T (i + 1))

/-- `K_i = permute(C_i || D_i, 56, PC2)`, the subkey of round `i` (R133). -/
def subkey (T : Tables) (cd : KeyPair) (i : Nat) : Subkey :=
  permute T.pc2 (keyHalf T (leftHalf cd) i ++ keyHalf T (rightHalf cd) i)

/-- The key schedule: `KS[i-1]` is the subkey of round `i`, for `i` from 1 to 16 (R134). -/
def keySchedule (T : Tables) (key : List Byte) : SubkeyFile :=
  Vector.ofFn fun i : Fin 16 => subkey T (permutedKey T key) (i.val + 1)

/-- KEY_LOAD (R135, R136): any length but 8 is ERR_KEY_LENGTH and leaves the state as it was; otherwise
all of KS is written and KEY_VALID set. Parity and weak keys are not looked at (R137). -/
def execKeyLoad (len : Nat) (s : State) : Host.Outcome State Fault Refusal :=
  whenStarted len s <|
    if ¬ isBlockLength len then .next (raiseRecoverable .errKeyLength s)
    else .next (respond .ok [] (s.setKs (keySchedule s.cfg.tables (memRead s 0 8))).setKeyValid)

end Sys2Proof.Machine
end

