-- ==== Sys2Proof/Machine/Round.lean ====
section
/-! DEFINITION. Component 4, the Round (Feistel) Function (42_round_function.md R150 to R155). -/

namespace Sys2Proof.Machine

/-- Group `j` of the mixed value, `Y[47-6j : 42-6j]`, the most significant group first (R152). -/
def sboxGroup (y : BitVec 48) (j : Fin 8) : BitVec 6 := y.extractLsb' (42 - 6 * j.val) 6

/-- `Z = O_0 || O_1 || ... || O_7`, each group looked up in the table of its own index (R153). -/
def substituteAll (T : Tables) (y : BitVec 48) : BitVec 32 :=
  (List.finRange 8).foldl
    (fun z j => z.extractLsb' 0 28 ++ substitute T j (sboxGroup y j)) 0#32

/-- `F(R, K)`: expand, mix the subkey in, substitute, permute (R155). -/
def roundF (T : Tables) (r : HalfBlock) (k : Subkey) : HalfBlock :=
  permute T.p (substituteAll T (permute T.e r ^^^ k))

end Sys2Proof.Machine
end

