-- ==== Sys2Proof/Machine/Block.lean ====
section
/-! DEFINITION. Component 5, the Block Cipher Core, and its commands ENC_BLOCK and DEC_BLOCK
(43_block_core.md R170 to R180). -/

namespace Sys2Proof.Machine

/-- The subkey index of each round `n`, 1 to 16 in order: `n - 1` when encrypting, `16 - n` when
decrypting (R171). -/
def roundOrder : Direction → List (Fin 16)
  | .enc => List.finRange 16
  | .dec => (List.finRange 16).map Fin.rev

/-- One round: `L_n <- R_{n-1}` and `R_n <- L_{n-1} XOR F(R_{n-1}, K)` (R171). -/
def feistelRound (T : Tables) (k : Subkey) (lr : HalfBlock × HalfBlock) : HalfBlock × HalfBlock :=
  (lr.2, lr.1 ^^^ roundF T lr.2 k)

/-- The rounds of a block, one per subkey index, in order (R171). -/
def feistelRounds (T : Tables) (ks : SubkeyFile) (order : List (Fin 16))
    (lr : HalfBlock × HalfBlock) : HalfBlock × HalfBlock :=
  order.foldl (fun lr i => feistelRound T (ks.get i) lr) lr

/-- `V = permute(be64(b), 64, IP)`, split into `L_0 = V[63:32]` and `R_0 = V[31:0]` (R170). -/
def splitBlock (T : Tables) (b : Word64) : HalfBlock × HalfBlock :=
  ((permute T.ip b).extractLsb' 32 32, (permute T.ip b).extractLsb' 0 32)

/-- `permute(R_16 || L_16, 64, FP)`: the halves joined in swapped order (R173). -/
def joinBlock (T : Tables) (lr : HalfBlock × HalfBlock) : Word64 := permute T.fp (lr.2 ++ lr.1)

/-- The block transformation on 64-bit values (R170 to R173). -/
def blockCore64 (T : Tables) (ks : SubkeyFile) (dir : Direction) (b : Word64) : Word64 :=
  joinBlock T (feistelRounds T ks (roundOrder dir) (splitBlock T b))

/-- `BlockCore(b, KS, dir)` on 8 bytes (R174). -/
def blockCore (T : Tables) (ks : SubkeyFile) (dir : Direction) (b : List Byte) : List Byte :=
  bytes64 (blockCore64 T ks dir (be64 b))

/-- What ENC_BLOCK and DEC_BLOCK share (R175, R178): the key test, the length test, one block. -/
def blockCommand (dir : Direction) (len : Nat) (s : State) : Host.Outcome State Fault Refusal :=
  whenStarted len s <|
    if s.keyValid = false then .next (raiseRecoverable .errNoKey s)
    else if ¬ isBlockLength len then .next (raiseFatal .fatalBlockLength s)
    else .next (respond .ok
      (memWrite (newRes 8) 0 (blockCore s.cfg.tables s.ks dir (memRead s 0 8))) s)

/-- ENC_BLOCK (R175). It never pads. -/
def execEncBlock (len : Nat) (s : State) : Host.Outcome State Fault Refusal :=
  blockCommand .enc len s

/-- DEC_BLOCK (R178). It never removes padding. -/
def execDecBlock (len : Nat) (s : State) : Host.Outcome State Fault Refusal :=
  blockCommand .dec len s

end Sys2Proof.Machine
end

