-- ==== Sys2Proof/Machine/Message.lean ====
section
/-! DEFINITION. Component 6, the Message Codec, and its commands ENC_MSG and DEC_MSG
(44_message_codec.md R190 to R203). -/

namespace Sys2Proof.Machine

/-- `p = 8 - (n mod 8)`, the number of padding bytes of a message of `n` bytes (R190). -/
def padLength (n : Nat) : Nat := 8 - n % 8

/-- `pad(m) = m ++ rep(p, p)` (R190). -/
def pad (m : List Byte) : List Byte :=
  m ++ List.replicate (padLength m.length) (BitVec.ofNat 8 (padLength m.length))

/-- `unpad(q)`: the last byte is the candidate `p`; outside [1, 8] or above the length it is no padding
and `q` is returned unchanged, otherwise the last `p` bytes go, whatever they are (R192, R193).
DESIGN CHOICE (log 18), safe: an empty `q` is returned. -/
def unpad (q : List Byte) : List Byte :=
  match q.getLast? with
  | none => q
  | some last =>
    if last.toNat < 1 ∨ 8 < last.toNat ∨ q.length < last.toNat then q
    else q.take (q.length - last.toNat)

/-- `k` blocks of a byte sequence, each transformed alone, in offset order (R194). -/
def ecbBlocks (T : Tables) (ks : SubkeyFile) (dir : Direction) : Nat → List Byte → List Byte
  | 0, _ => []
  | k + 1, q => blockCore T ks dir (q.take 8) ++ ecbBlocks T ks dir k (q.drop 8)

/-- `ecb(q, KS, dir)` of a sequence whose length is a multiple of 8 (R194). DESIGN CHOICE
(log 18), safe: bytes after the last whole block are dropped. -/
def ecb (T : Tables) (ks : SubkeyFile) (dir : Direction) (q : List Byte) : List Byte :=
  ecbBlocks T ks dir (q.length / 8) q

/-- ENC_MSG's loop over BLK (R195): `MemWrite(8*BLK, 8, BlockCore(PM[8*BLK .. 8*BLK+8), KS, Enc))` for
BLK from 0 to `blocks - 1`, on a RES of 8 bytes a block. -/
def encryptBlocks (T : Tables) (ks : SubkeyFile) (pm : List Byte) (blocks : Nat) : List Byte :=
  (List.range blocks).foldl
    (fun res blk => memWrite res (8 * blk) (blockCore T ks .enc (block pm blk)))
    (newRes (8 * blocks))

/-- ENC_MSG (R195): any length up to MAX_MSG_LEN; always padded. It has no fatal case. -/
def execEncMsg (len : Nat) (s : State) : Host.Outcome State Fault Refusal :=
  whenStarted len s <|
    if s.keyValid = false then .next (raiseRecoverable .errNoKey s)
    else if overLengthLimit s.cfg len then .next (raiseRecoverable .errLengthLimit s)
    else .next (respond .ok
      (encryptBlocks s.cfg.tables s.ks (pad (memRead s 0 len)) ((len + padLength len) / 8)) s)

/-- What DEC_MSG does with a legal, non-empty ciphertext (R199): decrypt, unpad, write the result. -/
def decryptMessage (T : Tables) (ks : SubkeyFile) (c : List Byte) : List Byte :=
  memWrite (newRes (unpad (ecb T ks .dec c)).length) 0 (unpad (ecb T ks .dec c))

/-- DEC_MSG (R199, R203): the key test, the length limit, the multiple of 8, the empty ciphertext by
EMPTY_DECRYPT, then the message. Malformed padding raises nothing (R198). -/
def execDecMsg (len : Nat) (s : State) : Host.Outcome State Fault Refusal :=
  whenStarted len s <|
    if s.keyValid = false then .next (raiseRecoverable .errNoKey s)
    else if overLengthLimit s.cfg len then .next (raiseRecoverable .errLengthLimit s)
    else if len % 8 ≠ 0 then .next (raiseFatal .fatalMsgLength s)
    else if len = 0 then
      match s.cfg.emptyDecrypt with
      | .fatal => .next (raiseFatal .fatalEmptyInput s)
      | .returnEmpty => .next (respond .ok [] s)
    else .next (respond .ok (decryptMessage s.cfg.tables s.ks (memRead s 0 len)) s)

end Sys2Proof.Machine
end

