-- ==== Sys2Proof/Machine/Dispatch.lean ====
section
/-! DEFINITION. One arm per command of the opcode map (30_encoding.md R78). -/

namespace Sys2Proof.Machine

def exec (i : Instr) (s : State) : Host.Outcome State Fault Refusal :=
  match i with
  | .keyLoad len => Sys2Proof.Machine.execKeyLoad len s
  | .encBlock len => Sys2Proof.Machine.execEncBlock len s
  | .decBlock len => Sys2Proof.Machine.execDecBlock len s
  | .encMsg len => Sys2Proof.Machine.execEncMsg len s
  | .decMsg len => Sys2Proof.Machine.execDecMsg len s

end Sys2Proof.Machine
end

