-- ==== Sys2Proof/Machine/Step.lean ====
section
/-! DEFINITION. One step of the machine: what stands at the port is taken and served as one transition
(00_scope.md R14; 30_encoding.md R84; 60_exceptions.md R225). -/

namespace Sys2Proof.Machine

/-- One step. With no request the engine is idle and keeps its state (R236; log 7); the reset signal is
applied (R250); while HALTED no step is enabled (R223); a whole request is served, and an illegal one
is answered with ERR_ILLEGAL_COMMAND (R80). -/
def step (s : State) : Host.Outcome State Fault Refusal :=
  match fetch s with
  | .idle => .next s
  | .reset rest => .next (applyReset rest s)
  | .stuck => .fault .halted
  | .malformed why => .refused why
  | .request h s' =>
    match decodeHeader h with
    | .ok i => exec i s'
    | .error _ => .next (raiseRecoverable .errIllegalCommand s')

/-- `s` with the request a table word stands for at the port, so that the next step serves it
(log 11). -/
def State.withFetchWord (s : State) (nbits w : Nat) : State :=
  placeRequest (tableRequest nbits w) s

end Sys2Proof.Machine
end

