-- ==== Sys2Proof/Machine/Assembler.lean ====
section
/-! DEFINITION. The assembler syntax of 30_encoding.md R81 and R82: `MNEMONIC operand`, one command a
line, with the source's operation names as aliases, RAW for a literal header, and `;` for a comment.
It makes the bytes of a request; it is no part of the engine. Points R81 leaves open are in log 17. -/

namespace Sys2Proof.Machine

/-- Why a line is no command. -/
inductive AsmError where
  | unknownMnemonic
  | missingOperand
  | badHex
  | badString
  | operandTooLong
  | rawHeaderMalformed
  | rawLengthMismatch
  deriving DecidableEq, Repr

/-- The command a mnemonic or an alias names (R78, R82), with LEN still to come. -/
def mnemonicOf (word : List Char) : Option (Nat → Instr) :=
  if word = "KEY_LOAD".toList ∨ word = "CONSTRUCT".toList then some .keyLoad
  else if word = "ENC_BLOCK".toList ∨ word = "ENCRYPT_BLOCK".toList then some .encBlock
  else if word = "DEC_BLOCK".toList ∨ word = "DECRYPT_BLOCK".toList then some .decBlock
  else if word = "ENC_MSG".toList ∨ word = "ENCRYPT".toList then some .encMsg
  else if word = "DEC_MSG".toList ∨ word = "DECRYPT".toList then some .decMsg
  else none

/-- The value of a hexadecimal digit. -/
def hexDigit (c : Char) : Option Nat :=
  if '0'.toNat ≤ c.toNat ∧ c.toNat ≤ '9'.toNat then some (c.toNat - '0'.toNat)
  else if 'A'.toNat ≤ c.toNat ∧ c.toNat ≤ 'F'.toNat then some (c.toNat - 'A'.toNat + 10)
  else if 'a'.toNat ≤ c.toNat ∧ c.toNat ≤ 'f'.toNat then some (c.toNat - 'a'.toNat + 10)
  else none

/-- A space or a tab. -/
abbrev isBlank (c : Char) : Prop := c = ' ' ∨ c = '\t'

/-- Pairs of hexadecimal digits, one pair a byte in offset order, spaces allowed between pairs (R81). -/
def hexPairs : List Char → Option (List Byte)
  | [] => some []
  | [c] => if isBlank c then some [] else none
  | c :: d :: rest =>
    if isBlank c then hexPairs (d :: rest)
    else match hexDigit c, hexDigit d, hexPairs rest with
      | some hi, some lo, some bytes => some (BitVec.ofNat 8 (16 * hi + lo) :: bytes)
      | _, _, _ => none

/-- The ASCII codes of a string's characters (R81). -/
def asciiBytes (cs : List Char) : Option (List Byte) :=
  if cs.all fun c => decide (c.toNat < 128) then some (cs.map fun c => BitVec.ofNat 8 c.toNat) else none

/-- The line without its comment: `;` starts one, outside a quoted string (R81). -/
def stripComment : Bool → List Char → List Char
  | _, [] => []
  | quoted, c :: rest =>
    if c = '"' then c :: stripComment (!quoted) rest
    else if c = ';' ∧ quoted = false then []
    else c :: stripComment quoted rest

/-- A line without the blanks at its start. -/
def dropBlanks (cs : List Char) : List Char := cs.dropWhile fun c => decide (isBlank c)

/-- A line without the blanks at its end. -/
def dropBlanksRight (cs : List Char) : List Char := (dropBlanks cs.reverse).reverse

/-- The first word of a line and what follows it. -/
def splitWord (cs : List Char) : List Char × List Char :=
  (cs.takeWhile fun c => ¬ decide (isBlank c), dropBlanks (cs.dropWhile fun c => ¬ decide (isBlank c)))

/-- The bytes an operand denotes (R81): a quoted string, `0x` and pairs without spaces, or bare pairs
with optional spaces. `""` and `0x` are the empty operand. -/
def parseOperand : List Char → Except AsmError (List Byte)
  | [] => .error .missingOperand
  | '"' :: rest =>
    if rest.getLast? ≠ some '"' ∨ '"' ∈ rest.dropLast then .error .badString
    else match asciiBytes rest.dropLast with
      | some bytes => .ok bytes
      | none => .error .badString
  | '0' :: 'x' :: rest =>
    if rest.any fun c => decide (isBlank c) then .error .badHex
    else match hexPairs rest with
      | some bytes => .ok bytes
      | none => .error .badHex
  | cs =>
    match hexPairs cs with
    | some bytes => .ok bytes
    | none => .error .badHex

/-- The request of a command line: LEN is the number of operand bytes and RSV is zero (R81). -/
def assembleCommand (make : Nat → Instr) (operand : List Byte) : Except AsmError (List Byte) :=
  if operand.length < 2 ^ 32 then .ok (encodeRequest (make operand.length) operand)
  else .error .operandTooLong

/-- The request of a RAW line: the header literally, its LEN the number of operand bytes (R82). -/
def assembleRaw (rest : List Char) : Except AsmError (List Byte) :=
  match splitWord rest with
  | ('0' :: 'x' :: digits, operandText) =>
    match hexPairs digits, parseOperand operandText with
    | some header, .ok operand =>
      if header.length ≠ 8 then .error .rawHeaderMalformed
      else if headerLen (be64 header) ≠ operand.length then .error .rawLengthMismatch
      else .ok (header ++ operand)
    | none, _ => .error .rawHeaderMalformed
    | _, .error e => .error e
  | _ => .error .rawHeaderMalformed

/-- The request bytes of one line, or none for a line that holds no command. -/
def assembleLine (line : List Char) : Except AsmError (Option (List Byte)) :=
  match splitWord (dropBlanks (dropBlanksRight (stripComment false line))) with
  | ([], _) => .ok none
  | (word, rest) =>
    if word = "RAW".toList then (assembleRaw rest).map some
    else match mnemonicOf word with
      | none => .error .unknownMnemonic
      | some make =>
        match parseOperand rest with
        | .ok operand => (assembleCommand make operand).map some
        | .error e => .error e

/-- The requests of a program, one per line that holds a command, in order. -/
def assemble : List (List Char) → Except AsmError (List HostInput)
  | [] => .ok []
  | line :: lines =>
    match assembleLine line, assemble lines with
    | .ok (some bytes), .ok more => .ok (.request bytes :: more)
    | .ok none, .ok more => .ok more
    | .error e, _ => .error e
    | _, .error e => .error e

end Sys2Proof.Machine
end

