-- ==== Sys2Proof/Safety.lean ====
section
/-! DEFINITION. The terms claims use: when an engine serves requests, when a run has ended well or has
faulted (70_reset_and_hazards.md R260), and the invariant that every step keeps. -/

namespace Sys2Proof

open Sys2Proof.Machine

/-- The engine takes requests: HALTED = 0 (R26). -/
abbrev Running (s : State) : Prop := s.halted = false

/-- The engine holds a cipher instance: KEY_VALID = 1 (R22). -/
abbrev Keyed (s : State) : Prop := s.keyValid = true

/-- The engine can start a command of LEN `len`: it is running and the operand has arrived (R75, R225). -/
abbrev Ready (len : Nat) (s : State) : Prop := Running s ∧ s.opnd.length = len

/-- A run has ended well: every request sent has its response, and HALTED = 0 (R260). -/
abbrev RunEndedWell (s : State) : Prop := s.inbox = [] ∧ Running s

/-- A run that ends with HALTED = 1 has faulted (R260). -/
abbrev RunFaulted (s : State) : Prop := s.halted = true

/-- The bytes of a request are a whole request: 8 header bytes and exactly LEN operand bytes (R75). -/
def WholeRequest (bytes : List Byte) (h : Word64) (operand : List Byte) : Prop :=
  bytes = bytes64 h ++ operand ∧ operand.length = headerLen h

/-- A response has one of the eight statuses, RSV zero, LEN the number of its result bytes, and no
result bytes when its status is not OK (30_encoding.md R72, R76, R77). -/
def ResponseWellFormed (r : Response) : Prop :=
  ∃ st : Status, r.header = responseHeader st r.bytes.length ∧ r.bytes.length < 2 ^ 32 ∧
    (st ≠ .ok → r.bytes = [])

/-- While KEY_VALID = 1, KS is the key schedule of some 8-byte key (10_state.md R22, R23). -/
def SubkeysFromKey (s : State) : Prop :=
  s.keyValid = true → ∃ key : List Byte, key.length = 8 ∧ s.ks = keySchedule s.cfg.tables key

/-- The invariant of the machine: a legal configuration (R5, R119), no operand kept between commands
(20_memory.md R66), subkeys that come from a key, and only well-formed responses. -/
structure MachineInvariant (s : State) : Prop where
  config_valid : configValid s.cfg
  operand_empty : s.opnd = []
  subkeys_from_key : SubkeysFromKey s
  responses_well_formed : ∀ r ∈ s.outbox, ResponseWellFormed r

end Sys2Proof
end

