-- ==== Sys2Proof/Certificates/Slice0/Obligations.lean ====
section
/-! DEFINITION. The statements about the machine, taken from the numbered rules of spec/. -/

open Sys2Proof Sys2Proof.Machine

/-! ### Encodings (30_encoding.md) -/

/-- Words written out from R71, R74 and R78, one a command, decode to the command they stand for, and
an unassigned OP (R80) and a set reserved bit (R79) are refused by name. -/
def Obligations.WrittenOutHeadersDecode : Prop :=
  decode [0, 0, 0, 8, 0, 0, 0, 1] = .ok (.keyLoad 8, []) ∧
  decode [0, 0, 0, 8, 0, 0, 0, 2] = .ok (.encBlock 8, []) ∧
  decode [0, 0, 0, 8, 0, 0, 0, 3] = .ok (.decBlock 8, []) ∧
  decode [0, 0, 1, 0, 0, 0, 0, 4, 0xAA] = .ok (.encMsg 256, [0xAA]) ∧
  decode [0xFF, 0xFF, 0xFF, 0xFF, 0, 0, 0, 5] = .ok (.decMsg 4294967295, []) ∧
  decode [0, 0, 0, 0, 0, 0, 0, 6] = .error .unassignedOpcode ∧
  decode [0, 0, 0, 8, 0, 0, 1, 2] = .error .reservedBitsSet ∧
  decode [0, 0, 0, 8, 0, 0, 0] = .error .truncated

/-- R74, R75: what is encoded for a well-formed command with any operand decodes to that command, and
the bytes after the header are the operand. No bit of LEN or of the operation is dropped. -/
def Obligations.DecodeOfEncodedRequest : Prop :=
  ∀ (i : Instr) (operand : List Byte), i.WellFormed →
    decode (encodeRequest i operand) = .ok (i, operand)

/-- R71, R75, R79: a byte string that decodes is the encoding of exactly what it decodes to. -/
def Obligations.DecodedBytesAreTheEncoding : Prop :=
  ∀ (bytes : List Byte) (i : Instr) (operand : List Byte), decode bytes = .ok (i, operand) →
    i.WellFormed ∧ bytes = encodeRequest i operand

/-- R79 with the OP values of R78 and LEN as R73 reads it: a header spells a command if and only if its
low 32 bits are the command's match value under the mask 0x00000000FFFFFFFF. -/
def Obligations.HeaderSpellsCommandByMatchAndMask : Prop :=
  ∀ (h : Word64) (n : Nat),
    (decodeHeader h = .ok (.keyLoad n) ↔ h &&& 0xFFFFFFFF#64 = 0x1#64 ∧ n = h.toNat / 2 ^ 32) ∧
    (decodeHeader h = .ok (.encBlock n) ↔ h &&& 0xFFFFFFFF#64 = 0x2#64 ∧ n = h.toNat / 2 ^ 32) ∧
    (decodeHeader h = .ok (.decBlock n) ↔ h &&& 0xFFFFFFFF#64 = 0x3#64 ∧ n = h.toNat / 2 ^ 32) ∧
    (decodeHeader h = .ok (.encMsg n) ↔ h &&& 0xFFFFFFFF#64 = 0x4#64 ∧ n = h.toNat / 2 ^ 32) ∧
    (decodeHeader h = .ok (.decMsg n) ↔ h &&& 0xFFFFFFFF#64 = 0x5#64 ∧ n = h.toNat / 2 ^ 32)

/-- R72: the fields of a response header, for a result length that fits LEN. -/
def Obligations.ResponseHeaderFields : Prop :=
  ∀ (st : Status) (n : Nat), n < 2 ^ 32 →
    (responseHeader st n).toNat / 2 ^ 32 = n ∧
    (responseHeader st n).toNat / 2 ^ 8 % 2 ^ 24 = 0 ∧
    (responseHeader st n).toNat % 2 ^ 8 = (statusCode st).toNat

/-- R77: the codes of the eight statuses; bit 7 set means fatal. -/
def Obligations.StatusCodesAndClasses : Prop :=
  statusCode .ok = 0x00#8 ∧ statusCode .errIllegalCommand = 0x01#8 ∧ statusCode .errNoKey = 0x02#8 ∧
  statusCode .errKeyLength = 0x03#8 ∧ statusCode .errLengthLimit = 0x04#8 ∧
  statusCode .fatalBlockLength = 0x80#8 ∧ statusCode .fatalMsgLength = 0x81#8 ∧
  statusCode .fatalEmptyInput = 0x82#8 ∧
  ∀ st : Status, isFatal st = true ↔
    st = .fatalBlockLength ∨ st = .fatalMsgLength ∨ st = .fatalEmptyInput

/-- R12: `be64` concatenates the 8 bytes, byte 0 most significant, and `bytes64` is its inverse, with
`bytes64(v)[i] = v[63-8i : 56-8i]`. -/
def Obligations.BytesAndBlockValuesConvertBothWays : Prop :=
  (∀ b0 b1 b2 b3 b4 b5 b6 b7 : Byte,
    be64 [b0, b1, b2, b3, b4, b5, b6, b7] = b0 ++ b1 ++ b2 ++ b3 ++ b4 ++ b5 ++ b6 ++ b7) ∧
  (∀ v : Word64, be64 (bytes64 v) = v) ∧
  (∀ b : List Byte, b.length = 8 → bytes64 (be64 b) = b) ∧
  (∀ (v : Word64) (i : Nat), i < 8 → (bytes64 v)[i]? = some (v.extractLsb' (56 - 8 * i) 8))

/-! ### The port: what a step does with what stands there -/

/-- R75, R84: a step at a running engine whose next request's bytes decode to a command and carry
exactly its LEN operand bytes is that command, run with the operand in OPND and the request taken. -/
def Obligations.StepRunsTheDecodedCommand : Prop :=
  ∀ (s : State) (bytes : List Byte) (rest : List HostInput) (i : Instr) (operand : List Byte),
    Running s → s.inbox = .request bytes :: rest → decode bytes = .ok (i, operand) →
    RequestWellFormed i operand →
    step s = exec i { s with inbox := rest, opnd := operand }

/-- The model's own placing of a table word (log 11): the next step runs the command the decoder reads
from it, with zero operand bytes. -/
def Obligations.PlacedTableWordRuns : Prop :=
  ∀ (s : State) (w : Nat) (i : Instr), decodeTableWord 64 w = some i →
    step (s.withFetchWord 64 w) =
      exec i { s with halted := false, opnd := List.replicate i.len 0#8 }

/-- R80: a whole request whose OP is 0x00 or 0x06 to 0xFF, or whose RSV is not zero, is answered with
STATUS 0x01 and no result bytes; its operand is consumed and no engine state changes. -/
def Obligations.IllegalRequestIsAnsweredAndIgnored : Prop :=
  ∀ (s : State) (bytes : List Byte) (rest : List HostInput) (h : Word64) (operand : List Byte),
    Running s → s.inbox = .request bytes :: rest → WholeRequest bytes h operand →
    (h.toNat % 2 ^ 8 = 0 ∨ 6 ≤ h.toNat % 2 ^ 8 ∨ h.toNat / 2 ^ 8 % 2 ^ 24 ≠ 0) →
    step s = .next { s with inbox := rest, opnd := [],
                            outbox := s.outbox ++ [⟨0x0000000000000001#64, []⟩] }

/-- R84: a running engine answers every whole request, legal or illegal, in one step, with exactly one
response delivered after the earlier ones, and keeps nothing of the request. -/
def Obligations.EveryWholeRequestGetsOneResponse : Prop :=
  ∀ (s : State) (bytes : List Byte) (rest : List HostInput) (h : Word64) (operand : List Byte),
    Running s → s.inbox = .request bytes :: rest → WholeRequest bytes h operand →
    ∃ (t : State) (r : Response), step s = .next t ∧ t.outbox = s.outbox ++ [r] ∧
      t.inbox = rest ∧ t.opnd = []

/-- R225: the status a whole request is answered with, by the first test that holds, and HALTED after
it. `rsv`, `op` and `len` are the header's fields as numbers. -/
def Obligations.FirstErrorConditionWins : Prop :=
  ∀ (s : State) (bytes : List Byte) (rest : List HostInput) (h : Word64) (operand : List Byte)
    (rsv op len : Nat),
    Running s → s.inbox = .request bytes :: rest → WholeRequest bytes h operand →
    rsv = h.toNat / 2 ^ 8 % 2 ^ 24 → op = h.toNat % 2 ^ 8 → len = h.toNat / 2 ^ 32 →
    ∃ (t : State) (st : Status) (res : List Byte),
      step s = .next t ∧ t.outbox = s.outbox ++ [⟨responseHeader st res.length, res⟩] ∧
      (st ≠ .ok → res = []) ∧ t.halted = isFatal st ∧
      st = (if rsv ≠ 0 ∨ op < 1 ∨ 5 < op then .errIllegalCommand
        else if op = 1 then (if len ≠ 8 then .errKeyLength else .ok)
        else if s.keyValid = false then .errNoKey
        else if (op = 4 ∨ op = 5) ∧ s.cfg.maxMsgLen < len then .errLengthLimit
        else if (op = 2 ∨ op = 3) ∧ len ≠ 8 then .fatalBlockLength
        else if op = 5 ∧ len % 8 ≠ 0 then .fatalMsgLength
        else if op = 5 ∧ len = 0 ∧ s.cfg.emptyDecrypt = .fatal then .fatalEmptyInput
        else .ok)

/-- R75, R256: a request of which the header or some operand bytes have not arrived is never started,
and one that carries more bytes is no request of the host contract. The refusals are the model's
(log 9). -/
def Obligations.OnlyWholeRequestsStart : Prop :=
  ∀ (s : State) (bytes : List Byte) (rest : List HostInput),
    Running s → s.inbox = .request bytes :: rest →
    (bytes.length < 8 → step s = .refused .incompleteRequest) ∧
    (∀ (h : Word64) (operand : List Byte), bytes = bytes64 h ++ operand →
      (operand.length < headerLen h → step s = .refused .incompleteRequest) ∧
      (headerLen h < operand.length → step s = .refused .overlongRequest))

/-- R236: an engine that runs and has no request keeps its state (log 7). -/
def Obligations.IdleEngineKeepsItsState : Prop :=
  ∀ s : State, Running s → s.inbox = [] → step s = .next s

/-- R61 and R70: served one after another, a list of whole requests gets one response each, in as many
steps, unless a fatal response halts the engine before the last of them: then the first `k` have theirs,
the `k`-th is a fatal one (R222), and the run stops with the fault of the halted engine (R223). -/
def Obligations.RunAnswersEveryRequest : Prop :=
  ∀ (requests : List (Word64 × List Byte)) (s : State),
    Running s → (∀ q ∈ requests, q.2.length = headerLen q.1) →
    s.inbox = requests.map (fun q => HostInput.request (bytes64 q.1 ++ q.2)) →
    (∃ t : State, core.run requests.length s = .next t ∧ t.inbox = [] ∧
      t.outbox.length = s.outbox.length + requests.length) ∨
    (core.run requests.length s = .fault .halted ∧
      ∃ (k : Nat) (t : State) (r : Response), k < requests.length ∧ core.run k s = .next t ∧
        t.halted = true ∧ t.outbox.length = s.outbox.length + k ∧
        t.outbox.getLast? = some r ∧ 0x80 ≤ r.header.toNat % 2 ^ 8)

/-! ### Reset, HALTED and the two classes of error -/

/-- R36: the flags after reset, with no request pending and the configuration of R5. That the table
record and EMPTY_DECRYPT are the defaults is log 3 and log 4; KS is not stated. -/
def Obligations.ResetStateAsSpecified : Prop :=
  State.reset.keyValid = false ∧ State.reset.halted = false ∧ State.reset.inbox = [] ∧
  State.reset.opnd = [] ∧ State.reset.outbox = [] ∧ State.reset.cfg.tables = fips46 ∧
  State.reset.cfg.emptyDecrypt = .fatal ∧ configValid State.reset.cfg

/-- R250: the reset signal clears both flags whatever the state was, produces no response, and discards
a request outstanding at a halted engine (that it does so in the one step is log 8). -/
def Obligations.ResetSignalClearsBothFlags : Prop :=
  ∀ (s : State) (rest : List HostInput),
    (s.inbox = .reset :: rest ∨
      (s.halted = true ∧ ∃ bytes, s.inbox = .request bytes :: .reset :: rest)) →
    ∃ t : State, step s = .next t ∧ t.keyValid = false ∧ t.halted = false ∧ t.opnd = [] ∧
      t.inbox = rest ∧ t.outbox = s.outbox ∧ t.cfg = s.cfg

/-- R251: reset is the only event that clears HALTED and the only event that clears KEY_VALID. -/
def Obligations.OnlyResetClearsAFlag : Prop :=
  ∀ s t : State, step s = .next t →
    ((s.halted = true ∧ t.halted = false) ∨ (s.keyValid = true ∧ t.keyValid = false)) →
    s.inbox = .reset :: t.inbox ∨
      (s.halted = true ∧ ∃ bytes, s.inbox = .request bytes :: .reset :: t.inbox)

/-- R223: while HALTED = 1 and no reset comes, no step is enabled and no command runs; the model says so
by its fault. -/
def Obligations.HaltedEngineHasNoStep : Prop :=
  ∀ s : State, s.halted = true →
    (∀ i : Instr, exec i s = .fault .halted) ∧
    ((∀ rest, s.inbox ≠ .reset :: rest) →
      (∀ bytes rest, s.inbox ≠ .request bytes :: .reset :: rest) → step s = .fault .halted)

/-- R221: a step that answers with a recoverable code changes no engine state, its response has LEN 0
and no result bytes, and the engine takes the next request. -/
def Obligations.RecoverableErrorChangesNoState : Prop :=
  ∀ (s t : State) (r : Response), step s = .next t → t.outbox = s.outbox ++ [r] →
    1 ≤ r.header.toNat % 2 ^ 8 → r.header.toNat % 2 ^ 8 < 0x80 →
    r.header.toNat ≤ 4 ∧ r.bytes = [] ∧ t.keyValid = s.keyValid ∧ t.ks = s.ks ∧
      t.halted = s.halted ∧ t.halted = false ∧ t.cfg = s.cfg

/-- R222: a step that answers with a fatal code sets HALTED and changes no other engine state; its
response has LEN 0 and no result bytes. -/
def Obligations.FatalErrorSetsOnlyHalted : Prop :=
  ∀ (s t : State) (r : Response), step s = .next t → t.outbox = s.outbox ++ [r] →
    0x80 ≤ r.header.toNat % 2 ^ 8 →
    (r.header.toNat = 0x80 ∨ r.header.toNat = 0x81 ∨ r.header.toNat = 0x82) ∧ r.bytes = [] ∧
      t.halted = true ∧ t.keyValid = s.keyValid ∧ t.ks = s.ks ∧ t.cfg = s.cfg

/-- R224: a crypto command while KEY_VALID = 0, whatever its LEN, is answered with ERR_NO_KEY and
changes no engine state. -/
def Obligations.CryptoCommandWithoutKey : Prop :=
  ∀ (s : State) (i : Instr), (∀ n, i ≠ .keyLoad n) → Ready i.len s → s.keyValid = false →
    exec i s = .next { s with opnd := [],
                              outbox := s.outbox ++ [⟨0x0000000000000002#64, []⟩] }

/-! ### The invariant and what no step changes -/

/-- Every step keeps the machine's invariant: a legal configuration (R5, R119), no operand between
commands (R66), subkeys that come from a key (R22, R23), and only well-formed responses with one of
the eight statuses (R72, R76, R77). -/
def Obligations.StepKeepsMachineInvariant : Prop :=
  ∀ s t : State, MachineInvariant s → step s = .next t → MachineInvariant t

/-- The invariant holds at reset. The tables, EMPTY_DECRYPT and MAX_MSG_LEN there are log 2 to log 4. -/
def Obligations.ResetMeetsMachineInvariant : Prop := MachineInvariant State.reset

/-- R6, R34, R84: no step writes the configuration, the fixed tables among it (State carries it, log 1). -/
def Obligations.ConfigurationIsNeverWritten : Prop :=
  ∀ s t : State, step s = .next t → t.cfg = s.cfg

/-- R24, R136: a step changes KS or KEY_VALID only by a reset or by serving a KEY_LOAD of an 8-byte key,
which sets KEY_VALID and makes all of KS that key's schedule. -/
def Obligations.OnlyKeyLoadWritesSubkeys : Prop :=
  ∀ s t : State, step s = .next t →
    (t.ks = s.ks ∧ t.keyValid = s.keyValid) ∨
    (∃ (bytes : List Byte) (key : List Byte), s.inbox = .request bytes :: t.inbox ∧
      decode bytes = .ok (.keyLoad 8, key) ∧ key.length = 8 ∧
      t.ks = keySchedule s.cfg.tables key ∧ t.keyValid = true) ∨
    s.inbox = .reset :: t.inbox ∨
    (s.halted = true ∧ ∃ bytes, s.inbox = .request bytes :: .reset :: t.inbox)

/-- R66, R83: no step looks at the responses delivered before it. -/
def Obligations.DeliveredResponsesAreNeverRead : Prop :=
  ∀ (s t : State) (other : List Response), step s = .next t →
    ∃ more : List Response, t.outbox = s.outbox ++ more ∧
      step { s with outbox := other } = .next { t with outbox := other ++ more }

/-- R36, U1: while KEY_VALID = 0 no response and no flag depends on KS, and the first KEY_LOAD that
succeeds leaves none of it. -/
def Obligations.SubkeysUnseenWithoutKey : Prop :=
  ∀ (s t : State) (other : SubkeyFile), s.keyValid = false → step s = .next t →
    ∃ k : SubkeyFile, step { s with ks := other } = .next { t with ks := k } ∧
      (t.keyValid = true → k = t.ks)

/-- R60, R234: a crypto command that does not halt the engine has no effect on the answer to any later
command. -/
def Obligations.CryptoCommandsDoNotAffectLaterOnes : Prop :=
  ∀ (s t u : State) (a b : Instr) (operand : List Byte), (∀ n, a ≠ .keyLoad n) →
    exec a s = .next t → t.halted = false → exec b { s with opnd := operand } = .next u →
    ∃ (v : State) (r : Response), exec b { t with opnd := operand } = .next v ∧
      u.outbox = s.outbox ++ [r] ∧ v.outbox = t.outbox ++ [r] ∧
      v.ks = u.ks ∧ v.keyValid = u.keyValid ∧ v.halted = u.halted

/-- The frame of ENC_BLOCK, DEC_BLOCK, ENC_MSG and DEC_MSG (R60, R175, R178, R195, R199): KS, KEY_VALID,
the configuration and what the host has issued are unchanged, one response is delivered, OPND is
given up, and HALTED is set exactly when the response is a fatal one. -/
def Obligations.CryptoCommandFrame : Prop :=
  ∀ (s t : State) (i : Instr), (∀ n, i ≠ .keyLoad n) → exec i s = .next t →
    t.keyValid = s.keyValid ∧ t.ks = s.ks ∧ t.cfg = s.cfg ∧ t.inbox = s.inbox ∧ t.opnd = [] ∧
    ∃ r : Response, t.outbox = s.outbox ++ [r] ∧
      (t.halted = true ↔ 0x80 ≤ r.header.toNat % 2 ^ 8)

/-- The frame of KEY_LOAD (R135): HALTED, the configuration and what the host has issued are unchanged,
one response without result bytes is delivered, OPND is given up, and with a LEN that is not 8 KS and
KEY_VALID are unchanged too. -/
def Obligations.KeyLoadFrame : Prop :=
  ∀ (s t : State) (n : Nat), exec (.keyLoad n) s = .next t →
    t.halted = s.halted ∧ t.cfg = s.cfg ∧ t.inbox = s.inbox ∧ t.opnd = [] ∧
    (∃ r : Response, t.outbox = s.outbox ++ [r] ∧ r.bytes = []) ∧
    (n ≠ 8 → t.ks = s.ks ∧ t.keyValid = s.keyValid)

/-! ### Tables and primitives (40_tables_and_primitives.md) -/

/-- R119: the default tables obey every table invariant. -/
def Obligations.DefaultTablesAreValid : Prop := tablesValid fips46

/-- R100: the bit at position `i+1` of `permute(v, n, T)` from its most significant end is the input's
bit `v[n - T[i+1]]`, for a table of any length over an input of any width. Entries outside
`1..n` are no case of R100; what the equation says of them is the model's choice (log 12). -/
def Obligations.PermuteMovesEachBit : Prop :=
  ∀ (n m : Nat) (T : Vector Nat m) (v : BitVec n) (i : Nat) (hi : i < m),
    (permute T v).getMsbD i = v.getLsbD (n - T[i])

/-- R103: under valid tables FP undoes IP, and IP undoes FP, on every 64-bit value. -/
def Obligations.FinalPermutationUndoesInitial : Prop :=
  ∀ (T : Tables) (v : Word64), tablesValid T →
    permute T.fp (permute T.ip v) = v ∧ permute T.ip (permute T.fp v) = v

/-- R150 to R154: `F(R, K)` is `permute(Z, 32, P)` where nibble `j` of `Z`, the most significant first,
is the entry of S-box `j` for group `j` of `E(R) XOR K`; row and column are bits 5 and 0, and bits 4 to
1, of the group (R110). -/
def Obligations.RoundFunctionByGroups : Prop :=
  ∀ (T : Tables) (r : HalfBlock) (k : Subkey), ∃ (y : BitVec 48) (z : BitVec 32),
    y = permute T.e r ^^^ k ∧ roundF T r k = permute T.p z ∧
    ∀ (j : Fin 8) (g : Nat), g = (y.extractLsb' (42 - 6 * j.val) 6).toNat →
      z.extractLsb' (28 - 4 * j.val) 4 =
        ((T.sboxes.get j).get (Fin.ofNat 4 (2 * (g / 32) + g % 2))).get (Fin.ofNat 16 (g / 2 % 16))

/-! ### The key schedule and KEY_LOAD (41_key_schedule.md) -/

/-- R131 to R134: `KS[i]` is PC-2 of the halves of the permuted key, each rotated left by the sum of the
first `i+1` shifts. What it says of keys that are not 8 bytes is the model's choice
(log 18). -/
def Obligations.SubkeysByTotalRotation : Prop :=
  ∀ (T : Tables) (key : List Byte) (i : Fin 16) (cd : KeyPair) (total : Nat),
    cd = permute T.pc1 (be64 key) → total = (T.shifts.toList.take (i.val + 1)).sum →
    (keySchedule T key).get i =
      permute T.pc2 ((cd.extractLsb' 28 28).rotateLeft total ++ (cd.extractLsb' 0 28).rotateLeft total)

/-- R139: after round 16 each half is back at its round-0 value. -/
def Obligations.KeyHalvesReturnAfterRound16 : Prop :=
  ∀ (T : Tables) (x : KeyHalf), tablesValid T → keyHalf T x 16 = x

/-- R137: keys that differ only in the least significant bits of their bytes have the same schedule. -/
def Obligations.ParityBitsDoNotReachTheSubkeys : Prop :=
  ∀ (T : Tables) (key key' : List Byte), tablesValid T → key.length = 8 → key'.length = 8 →
    key.map (fun b : Byte => b.toNat / 2) = key'.map (fun b : Byte => b.toNat / 2) →
    keySchedule T key = keySchedule T key'

/-- R135, R136: KEY_LOAD of 8 bytes completes, on any running engine: all of KS is the key's schedule,
KEY_VALID is set, and the response is OK with LEN 0. -/
def Obligations.KeyLoadCompletes : Prop :=
  ∀ s : State, Ready 8 s →
    exec (.keyLoad 8) s =
      .next { s with ks := keySchedule s.cfg.tables s.opnd, keyValid := true, opnd := [],
                     outbox := s.outbox ++ [⟨0x0000000000000000#64, []⟩] }

/-- R135: KEY_LOAD of any other length is ERR_KEY_LENGTH and leaves the state as it was, an earlier key
included. -/
def Obligations.KeyLoadOfWrongLength : Prop :=
  ∀ (s : State) (n : Nat), Ready n s → n ≠ 8 →
    exec (.keyLoad n) s =
      .next { s with opnd := [], outbox := s.outbox ++ [⟨0x0000000000000003#64, []⟩] }

/-! ### The block core, ENC_BLOCK and DEC_BLOCK (43_block_core.md) -/

/-- R170, R171, R173: the block core, written as the sequences of halves `L_n`, `R_n` for `n` from 0 to
16, with the subkey index `n` in round `n+1` when encrypting and `15 - n` when decrypting.
The rules speak of blocks of 8 bytes; what it says of other lengths is the model's choice (log 18). -/
def Obligations.BlockCoreByRounds : Prop :=
  ∀ (T : Tables) (ks : SubkeyFile) (dir : Direction) (b : List Byte),
    ∃ L R : Nat → HalfBlock,
      L 0 ++ R 0 = permute T.ip (be64 b) ∧
      (∀ n, n < 16 → L (n + 1) = R n ∧
        R (n + 1) = L n ^^^ roundF T (R n)
          (ks.get (Fin.ofNat 16 (if dir = .enc then n else 15 - n)))) ∧
      blockCore T ks dir b = bytes64 (permute T.fp (R 16 ++ L 16))

/-- R175, R178: ENC_BLOCK and DEC_BLOCK of 8 bytes with a key loaded complete: the response is OK with
LEN 8 and the transformed block, and nothing else changes. -/
def Obligations.BlockCommandsComplete : Prop :=
  ∀ s : State, Ready 8 s → Keyed s →
    exec (.encBlock 8) s =
      .next { s with opnd := [], outbox := s.outbox ++
        [⟨0x0000000800000000#64, blockCore s.cfg.tables s.ks .enc s.opnd⟩] } ∧
    exec (.decBlock 8) s =
      .next { s with opnd := [], outbox := s.outbox ++
        [⟨0x0000000800000000#64, blockCore s.cfg.tables s.ks .dec s.opnd⟩] }

/-- R175, R178: with a key loaded, any LEN but 8 is FATAL_BLOCK_LENGTH and halts the engine. -/
def Obligations.BlockLengthViolationHalts : Prop :=
  ∀ (s : State) (n : Nat), Ready n s → Keyed s → n ≠ 8 →
    exec (.encBlock n) s =
      .next { s with halted := true, opnd := [],
                     outbox := s.outbox ++ [⟨0x0000000000000080#64, []⟩] } ∧
    exec (.decBlock n) s =
      .next { s with halted := true, opnd := [],
                     outbox := s.outbox ++ [⟨0x0000000000000080#64, []⟩] }

/-- R179: under the same KS, decryption inverts encryption and encryption inverts decryption, for every
block, every KS and every valid table record. -/
def Obligations.DecryptionInvertsEncryption : Prop :=
  ∀ (T : Tables) (ks : SubkeyFile) (b : List Byte), tablesValid T → b.length = 8 →
    blockCore T ks .dec (blockCore T ks .enc b) = b ∧
    blockCore T ks .enc (blockCore T ks .dec b) = b

/-! ### The message codec, ENC_MSG and DEC_MSG (44_message_codec.md) -/

/-- R190, R191: `p = 8 - (n mod 8)` bytes of value `p` are appended; `p` is 1 to 8, 8 on an aligned
message, and the padded length is the smallest multiple of 8 that is at least `n + 1`. -/
def Obligations.PaddingFillsToTheNextBlock : Prop :=
  ∀ (m : List Byte) (p : Nat), p = 8 - m.length % 8 →
    pad m = m ++ List.replicate p (BitVec.ofNat 8 p) ∧ 1 ≤ p ∧ p ≤ 8 ∧
    (pad m).length = m.length + p ∧ (pad m).length = 8 * (m.length / 8 + 1) ∧
    (m.length % 8 = 0 → p = 8) ∧
    (∀ k, k % 8 = 0 → m.length + 1 ≤ k → (pad m).length ≤ k)

/-- R192, R193: unpadding looks at the last byte `b` alone. When it is 1 to 8 and at most the length,
that many bytes are dropped, whatever they are; otherwise nothing is. -/
def Obligations.UnpadLooksAtTheLastByteOnly : Prop :=
  ∀ (q : List Byte) (b : Byte),
    unpad (q ++ [b]) =
      if b.toNat < 1 ∨ 8 < b.toNat ∨ q.length + 1 < b.toNat then q ++ [b]
      else q.take (q.length + 1 - b.toNat)

/-- R194: `ecb` keeps the length of a sequence of whole blocks, and its block `j` is the block core of
block `j` of the input: no block depends on another. -/
def Obligations.EcbTransformsEachBlockAlone : Prop :=
  ∀ (T : Tables) (ks : SubkeyFile) (dir : Direction) (q : List Byte), q.length % 8 = 0 →
    (ecb T ks dir q).length = q.length ∧
    ∀ j, 8 * j + 8 ≤ q.length → block (ecb T ks dir q) j = blockCore T ks dir (block q j)

/-- R197: equal blocks at aligned offsets of padded messages, of one message or of two, encrypt to equal
blocks under the same KS. -/
def Obligations.EqualBlocksEncryptEqually : Prop :=
  ∀ (T : Tables) (ks : SubkeyFile) (m m' : List Byte) (j j' : Nat),
    8 * j + 8 ≤ (pad m).length → 8 * j' + 8 ≤ (pad m').length →
    block (pad m) j = block (pad m') j' →
    block (ecb T ks .enc (pad m)) j = block (ecb T ks .enc (pad m')) j'

/-- R195, R196: ENC_MSG of any LEN up to MAX_MSG_LEN, with a key loaded, completes: the response is OK
and carries `ecb(pad(m), KS, Enc)`, whose length `8 * (LEN div 8 + 1)` is above LEN and a multiple of
8; nothing else changes. -/
def Obligations.EncMsgCompletes : Prop :=
  ∀ (s : State) (n : Nat), Ready n s → Keyed s → n ≤ s.cfg.maxMsgLen →
    ∃ res : List Byte, res = ecb s.cfg.tables s.ks .enc (pad s.opnd) ∧
      res.length = 8 * (n / 8 + 1) ∧ n < res.length ∧ res.length % 8 = 0 ∧
      exec (.encMsg n) s =
        .next { s with opnd := [], outbox := s.outbox ++
          [⟨BitVec.ofNat 32 (8 * (n / 8 + 1)) ++ 0x00000000#32, res⟩] }

/-- R199, R200, R198: DEC_MSG of a non-empty whole number of blocks, up to MAX_MSG_LEN, with a key
loaded, completes whatever it decrypts to: the response is OK and carries `unpad(ecb(c, KS, Dec))`, of
length LEN - 8 to LEN; nothing else changes. -/
def Obligations.DecMsgCompletes : Prop :=
  ∀ (s : State) (n : Nat), Ready n s → Keyed s → n ≤ s.cfg.maxMsgLen → n % 8 = 0 → 8 ≤ n →
    ∃ res : List Byte, res = unpad (ecb s.cfg.tables s.ks .dec s.opnd) ∧
      n - 8 ≤ res.length ∧ res.length ≤ n ∧
      exec (.decMsg n) s =
        .next { s with opnd := [], outbox := s.outbox ++
          [⟨BitVec.ofNat 32 res.length ++ 0x00000000#32, res⟩] }

/-- R203: DEC_MSG of nothing, with a key loaded, by EMPTY_DECRYPT: FATAL_EMPTY_INPUT and HALTED, or OK
with no result bytes and no state change. -/
def Obligations.DecMsgOfNothing : Prop :=
  ∀ s : State, Ready 0 s → Keyed s →
    (s.cfg.emptyDecrypt = .fatal → exec (.decMsg 0) s =
      .next { s with halted := true, outbox := s.outbox ++ [⟨0x0000000000000082#64, []⟩] }) ∧
    (s.cfg.emptyDecrypt = .returnEmpty → exec (.decMsg 0) s =
      .next { s with outbox := s.outbox ++ [⟨0x0000000000000000#64, []⟩] })

/-- R199: DEC_MSG of a LEN within MAX_MSG_LEN that is no multiple of 8, with a key loaded, is
FATAL_MSG_LENGTH and halts the engine. -/
def Obligations.DecMsgOfPartialBlockHalts : Prop :=
  ∀ (s : State) (n : Nat), Ready n s → Keyed s → n ≤ s.cfg.maxMsgLen → n % 8 ≠ 0 →
    exec (.decMsg n) s =
      .next { s with halted := true, opnd := [],
                     outbox := s.outbox ++ [⟨0x0000000000000081#64, []⟩] }

/-- R195, R199: ENC_MSG and DEC_MSG above MAX_MSG_LEN, with a key loaded, are ERR_LENGTH_LIMIT and
change no engine state, whatever MAX_MSG_LEN is. -/
def Obligations.MessageAboveTheLimit : Prop :=
  ∀ (s : State) (n : Nat), Ready n s → Keyed s → s.cfg.maxMsgLen < n →
    exec (.encMsg n) s =
      .next { s with opnd := [], outbox := s.outbox ++ [⟨0x0000000000000004#64, []⟩] } ∧
    exec (.decMsg n) s =
      .next { s with opnd := [], outbox := s.outbox ++ [⟨0x0000000000000004#64, []⟩] }

/-- R201: for every message at most MAX_MSG_LEN - 8 long and every KS, DEC_MSG of what ENC_MSG returned
returns the message. -/
def Obligations.MessageRoundTrip : Prop :=
  ∀ s : State, configValid s.cfg → Running s → Keyed s → s.opnd.length + 8 ≤ s.cfg.maxMsgLen →
    ∃ (t u : State) (h : Word64) (c : List Byte),
      exec (.encMsg s.opnd.length) s = .next t ∧ t.outbox = s.outbox ++ [⟨h, c⟩] ∧
      exec (.decMsg c.length) { t with opnd := c } = .next u ∧
      u.outbox = t.outbox ++ [⟨BitVec.ofNat 32 s.opnd.length ++ 0x00000000#32, s.opnd⟩] ∧
      u.halted = false

/-! ### The assembler (30_encoding.md R82) -/

/-- R82: each alias assembles, with any operand text, to exactly what the command it stands for
assembles to. -/
def Obligations.AliasesAssembleAsTheirCommands : Prop :=
  ∀ rest : List Char,
    assembleLine ("CONSTRUCT ".toList ++ rest) = assembleLine ("KEY_LOAD ".toList ++ rest) ∧
    assembleLine ("ENCRYPT_BLOCK ".toList ++ rest) = assembleLine ("ENC_BLOCK ".toList ++ rest) ∧
    assembleLine ("DECRYPT_BLOCK ".toList ++ rest) = assembleLine ("DEC_BLOCK ".toList ++ rest) ∧
    assembleLine ("ENCRYPT ".toList ++ rest) = assembleLine ("ENC_MSG ".toList ++ rest) ∧
    assembleLine ("DECRYPT ".toList ++ rest) = assembleLine ("DEC_MSG ".toList ++ rest)
end

