-- ==== Sys2Proof/Laws/Bytes.lean ====
section
/-! SUPPORT. Lengths and shapes of byte sequences: what `bytes64`, MemWrite, the block core and `ecb`
return. -/

namespace Sys2Proof.Machine

@[simp] theorem length_bytes64 (v : Word64) : (bytes64 v).length = 8 := rfl

@[simp] theorem length_newRes (n : Nat) : (newRes n).length = n := by simp [newRes]

@[simp] theorem length_blockCore (T : Tables) (ks : SubkeyFile) (dir : Direction) (b : List Byte) :
    (blockCore T ks dir b).length = 8 := rfl

/-- A MemWrite inside RES keeps RES's length. -/
theorem length_memWrite {res v : List Byte} {off : Nat} (h : off + v.length ≤ res.length) :
    (memWrite res off v).length = res.length := by
  simp [memWrite]
  omega

/-- A MemWrite of all of RES leaves exactly the bytes written. -/
@[simp] theorem memWrite_newRes (v : List Byte) : memWrite (newRes v.length) 0 v = v := by
  simp [memWrite, newRes]

/-- What DEC_MSG writes to RES is the unpadded message (R199). -/
@[simp] theorem decryptMessage_eq (T : Tables) (ks : SubkeyFile) (c : List Byte) :
    decryptMessage T ks c = unpad (ecb T ks .dec c) := memWrite_newRes _

@[simp] theorem length_ecbBlocks (T : Tables) (ks : SubkeyFile) (dir : Direction) (k : Nat)
    (q : List Byte) : (ecbBlocks T ks dir k q).length = 8 * k := by
  induction k generalizing q with
  | zero => rfl
  | succ k ih => simp [ecbBlocks, ih]; omega

/-- Splitting the bytes of a header word and what follows gives the word back as its 8 bytes. -/
theorem splitRequest_bytes64 (v : Word64) (rest : List Byte) :
    splitRequest (bytes64 v ++ rest) = some (be64 (bytes64 v), rest) := rfl

end Sys2Proof.Machine
end

