-- ==== Sys2Proof/Laws/State.lean ====
section
/-! SUPPORT. One lemma per field of State per update: what each update leaves of each field. -/

namespace Sys2Proof.Machine

variable (s : State)

@[simp] theorem State.setKeyValid_keyValid : s.setKeyValid.keyValid = true := rfl
@[simp] theorem State.setKeyValid_ks : s.setKeyValid.ks = s.ks := rfl
@[simp] theorem State.setKeyValid_halted : s.setKeyValid.halted = s.halted := rfl
@[simp] theorem State.setKeyValid_opnd : s.setKeyValid.opnd = s.opnd := rfl
@[simp] theorem State.setKeyValid_inbox : s.setKeyValid.inbox = s.inbox := rfl
@[simp] theorem State.setKeyValid_outbox : s.setKeyValid.outbox = s.outbox := rfl
@[simp] theorem State.setKeyValid_cfg : s.setKeyValid.cfg = s.cfg := rfl

@[simp] theorem State.setHalted_keyValid : s.setHalted.keyValid = s.keyValid := rfl
@[simp] theorem State.setHalted_ks : s.setHalted.ks = s.ks := rfl
@[simp] theorem State.setHalted_halted : s.setHalted.halted = true := rfl
@[simp] theorem State.setHalted_opnd : s.setHalted.opnd = s.opnd := rfl
@[simp] theorem State.setHalted_inbox : s.setHalted.inbox = s.inbox := rfl
@[simp] theorem State.setHalted_outbox : s.setHalted.outbox = s.outbox := rfl
@[simp] theorem State.setHalted_cfg : s.setHalted.cfg = s.cfg := rfl

@[simp] theorem State.setKs_keyValid (k : SubkeyFile) : (s.setKs k).keyValid = s.keyValid := rfl
@[simp] theorem State.setKs_ks (k : SubkeyFile) : (s.setKs k).ks = k := rfl
@[simp] theorem State.setKs_halted (k : SubkeyFile) : (s.setKs k).halted = s.halted := rfl
@[simp] theorem State.setKs_opnd (k : SubkeyFile) : (s.setKs k).opnd = s.opnd := rfl
@[simp] theorem State.setKs_inbox (k : SubkeyFile) : (s.setKs k).inbox = s.inbox := rfl
@[simp] theorem State.setKs_outbox (k : SubkeyFile) : (s.setKs k).outbox = s.outbox := rfl
@[simp] theorem State.setKs_cfg (k : SubkeyFile) : (s.setKs k).cfg = s.cfg := rfl

@[simp] theorem State.setOpnd_keyValid (b : List Byte) : (s.setOpnd b).keyValid = s.keyValid := rfl
@[simp] theorem State.setOpnd_ks (b : List Byte) : (s.setOpnd b).ks = s.ks := rfl
@[simp] theorem State.setOpnd_halted (b : List Byte) : (s.setOpnd b).halted = s.halted := rfl
@[simp] theorem State.setOpnd_opnd (b : List Byte) : (s.setOpnd b).opnd = b := rfl
@[simp] theorem State.setOpnd_inbox (b : List Byte) : (s.setOpnd b).inbox = s.inbox := rfl
@[simp] theorem State.setOpnd_outbox (b : List Byte) : (s.setOpnd b).outbox = s.outbox := rfl
@[simp] theorem State.setOpnd_cfg (b : List Byte) : (s.setOpnd b).cfg = s.cfg := rfl

@[simp] theorem State.setInbox_keyValid (l : List HostInput) : (s.setInbox l).keyValid = s.keyValid := rfl
@[simp] theorem State.setInbox_ks (l : List HostInput) : (s.setInbox l).ks = s.ks := rfl
@[simp] theorem State.setInbox_halted (l : List HostInput) : (s.setInbox l).halted = s.halted := rfl
@[simp] theorem State.setInbox_opnd (l : List HostInput) : (s.setInbox l).opnd = s.opnd := rfl
@[simp] theorem State.setInbox_inbox (l : List HostInput) : (s.setInbox l).inbox = l := rfl
@[simp] theorem State.setInbox_outbox (l : List HostInput) : (s.setInbox l).outbox = s.outbox := rfl
@[simp] theorem State.setInbox_cfg (l : List HostInput) : (s.setInbox l).cfg = s.cfg := rfl

@[simp] theorem State.pushResponse_keyValid (r : Response) : (s.pushResponse r).keyValid = s.keyValid := rfl
@[simp] theorem State.pushResponse_ks (r : Response) : (s.pushResponse r).ks = s.ks := rfl
@[simp] theorem State.pushResponse_halted (r : Response) : (s.pushResponse r).halted = s.halted := rfl
@[simp] theorem State.pushResponse_opnd (r : Response) : (s.pushResponse r).opnd = s.opnd := rfl
@[simp] theorem State.pushResponse_inbox (r : Response) : (s.pushResponse r).inbox = s.inbox := rfl
@[simp] theorem State.pushResponse_outbox (r : Response) : (s.pushResponse r).outbox = s.outbox ++ [r] := rfl
@[simp] theorem State.pushResponse_cfg (r : Response) : (s.pushResponse r).cfg = s.cfg := rfl

@[simp] theorem respond_keyValid (st : Status) (res : List Byte) : (respond st res s).keyValid = s.keyValid := rfl
@[simp] theorem respond_ks (st : Status) (res : List Byte) : (respond st res s).ks = s.ks := rfl
@[simp] theorem respond_halted (st : Status) (res : List Byte) : (respond st res s).halted = s.halted := rfl
@[simp] theorem respond_opnd (st : Status) (res : List Byte) : (respond st res s).opnd = [] := rfl
@[simp] theorem respond_inbox (st : Status) (res : List Byte) : (respond st res s).inbox = s.inbox := rfl
@[simp] theorem respond_outbox (st : Status) (res : List Byte) : (respond st res s).outbox = s.outbox ++ [responseOf st res] := rfl
@[simp] theorem respond_cfg (st : Status) (res : List Byte) : (respond st res s).cfg = s.cfg := rfl

@[simp] theorem raiseRecoverable_keyValid (c : Status) : (raiseRecoverable c s).keyValid = s.keyValid := rfl
@[simp] theorem raiseRecoverable_ks (c : Status) : (raiseRecoverable c s).ks = s.ks := rfl
@[simp] theorem raiseRecoverable_halted (c : Status) : (raiseRecoverable c s).halted = s.halted := rfl
@[simp] theorem raiseRecoverable_opnd (c : Status) : (raiseRecoverable c s).opnd = [] := rfl
@[simp] theorem raiseRecoverable_inbox (c : Status) : (raiseRecoverable c s).inbox = s.inbox := rfl
@[simp] theorem raiseRecoverable_outbox (c : Status) : (raiseRecoverable c s).outbox = s.outbox ++ [responseOf c []] := rfl
@[simp] theorem raiseRecoverable_cfg (c : Status) : (raiseRecoverable c s).cfg = s.cfg := rfl

@[simp] theorem raiseFatal_keyValid (c : Status) : (raiseFatal c s).keyValid = s.keyValid := rfl
@[simp] theorem raiseFatal_ks (c : Status) : (raiseFatal c s).ks = s.ks := rfl
@[simp] theorem raiseFatal_halted (c : Status) : (raiseFatal c s).halted = true := rfl
@[simp] theorem raiseFatal_opnd (c : Status) : (raiseFatal c s).opnd = [] := rfl
@[simp] theorem raiseFatal_inbox (c : Status) : (raiseFatal c s).inbox = s.inbox := rfl
@[simp] theorem raiseFatal_outbox (c : Status) : (raiseFatal c s).outbox = s.outbox ++ [responseOf c []] := rfl
@[simp] theorem raiseFatal_cfg (c : Status) : (raiseFatal c s).cfg = s.cfg := rfl

@[simp] theorem applyReset_keyValid (rest : List HostInput) : (applyReset rest s).keyValid = false := rfl
@[simp] theorem applyReset_ks (rest : List HostInput) : (applyReset rest s).ks = Vector.replicate 16 0#48 := rfl
@[simp] theorem applyReset_halted (rest : List HostInput) : (applyReset rest s).halted = false := rfl
@[simp] theorem applyReset_opnd (rest : List HostInput) : (applyReset rest s).opnd = [] := rfl
@[simp] theorem applyReset_inbox (rest : List HostInput) : (applyReset rest s).inbox = rest := rfl
@[simp] theorem applyReset_outbox (rest : List HostInput) : (applyReset rest s).outbox = s.outbox := rfl
@[simp] theorem applyReset_cfg (rest : List HostInput) : (applyReset rest s).cfg = s.cfg := rfl

@[simp] theorem placeRequest_keyValid (bytes : List Byte) : (placeRequest bytes s).keyValid = s.keyValid := rfl
@[simp] theorem placeRequest_ks (bytes : List Byte) : (placeRequest bytes s).ks = s.ks := rfl
@[simp] theorem placeRequest_halted (bytes : List Byte) : (placeRequest bytes s).halted = false := rfl
@[simp] theorem placeRequest_opnd (bytes : List Byte) : (placeRequest bytes s).opnd = s.opnd := rfl
@[simp] theorem placeRequest_inbox (bytes : List Byte) : (placeRequest bytes s).inbox = .request bytes :: s.inbox := rfl
@[simp] theorem placeRequest_outbox (bytes : List Byte) : (placeRequest bytes s).outbox = s.outbox := rfl
@[simp] theorem placeRequest_cfg (bytes : List Byte) : (placeRequest bytes s).cfg = s.cfg := rfl

end Sys2Proof.Machine
end

