-- ==== Sys2Proof/Laws/Ops.lean ====
section
/-! SUPPORT. For each shared operation of the machine, what it can do, said once: starting a command,
taking a request from the port, each command, and one step. -/

namespace Sys2Proof.Machine

/-- A command that may start is run. -/
theorem whenStarted_ready {len : Nat} {s : State} {k : Host.Outcome State Fault Refusal}
    (hr : s.halted = false) (hl : s.opnd.length = len) : whenStarted len s k = k := by
  simp [whenStarted, hr, hl]

/-- A command that answers a next state was started: the engine runs and OPND holds LEN bytes. -/
theorem whenStarted_next {len : Nat} {s t : State} {k : Host.Outcome State Fault Refusal}
    (h : whenStarted len s k = .next t) :
    s.halted = false ∧ s.opnd.length = len ∧ k = .next t := by
  unfold whenStarted at h
  split at h
  · cases h
  · split at h
    · cases h
    · split at h
      · cases h
      · exact ⟨by simpa using ‹¬s.halted = true›, by omega, h⟩

/-- While HALTED no command starts. -/
theorem whenStarted_halted {len : Nat} {s : State} {k : Host.Outcome State Fault Refusal}
    (hh : s.halted = true) : whenStarted len s k = .fault .halted := by simp [whenStarted, hh]

/-- The operand a command reads whole is OPND itself. -/
theorem memRead_all {s : State} {n : Nat} (h : s.opnd.length = n) : memRead s 0 n = s.opnd := by
  simp [memRead, slice, ← h]

/-- What KEY_LOAD can do when it answers a next state. -/
theorem execKeyLoad_cases {n : Nat} {s t : State} (h : execKeyLoad n s = .next t) :
    s.halted = false ∧ s.opnd.length = n ∧
    ((n ≠ 8 ∧ t = raiseRecoverable .errKeyLength s) ∨
     (n = 8 ∧ t = respond .ok [] (s.setKs (keySchedule s.cfg.tables s.opnd)).setKeyValid)) := by
  obtain ⟨hr, hl, hk⟩ := whenStarted_next h
  refine ⟨hr, hl, ?_⟩
  split at hk
  · exact .inl ⟨‹_›, by cases hk; rfl⟩
  · have h8 : n = 8 := by simpa using ‹¬¬isBlockLength n›
    subst h8
    exact .inr ⟨rfl, by cases hk; rw [memRead_all hl]⟩

/-- What ENC_BLOCK and DEC_BLOCK can do when they answer a next state. -/
theorem blockCommand_cases {dir : Direction} {n : Nat} {s t : State}
    (h : blockCommand dir n s = .next t) :
    s.halted = false ∧ s.opnd.length = n ∧
    ((s.keyValid = false ∧ t = raiseRecoverable .errNoKey s) ∨
     (s.keyValid = true ∧ n ≠ 8 ∧ t = raiseFatal .fatalBlockLength s) ∨
     (s.keyValid = true ∧ n = 8 ∧
       t = respond .ok (blockCore s.cfg.tables s.ks dir s.opnd) s)) := by
  obtain ⟨hr, hl, hk⟩ := whenStarted_next h
  refine ⟨hr, hl, ?_⟩
  split at hk
  · exact .inl ⟨‹_›, by cases hk; rfl⟩
  · have hv : s.keyValid = true := by simpa using ‹¬s.keyValid = false›
    split at hk
    · exact .inr (.inl ⟨hv, ‹_›, by cases hk; rfl⟩)
    · have h8 : n = 8 := by simpa using ‹¬¬isBlockLength n›
      subst h8
      refine .inr (.inr ⟨hv, rfl, ?_⟩)
      cases hk
      rw [memRead_all hl]
      rfl

/-- What ENC_MSG can do when it answers a next state. -/
theorem execEncMsg_cases {n : Nat} {s t : State} (h : execEncMsg n s = .next t) :
    s.halted = false ∧ s.opnd.length = n ∧
    ((s.keyValid = false ∧ t = raiseRecoverable .errNoKey s) ∨
     (s.keyValid = true ∧ s.cfg.maxMsgLen < n ∧ t = raiseRecoverable .errLengthLimit s) ∨
     (s.keyValid = true ∧ n ≤ s.cfg.maxMsgLen ∧ t = respond .ok
       (encryptBlocks s.cfg.tables s.ks (pad s.opnd) ((n + padLength n) / 8)) s)) := by
  obtain ⟨hr, hl, hk⟩ := whenStarted_next h
  refine ⟨hr, hl, ?_⟩
  split at hk
  · exact .inl ⟨‹_›, by cases hk; rfl⟩
  · have hv : s.keyValid = true := by simpa using ‹¬s.keyValid = false›
    split at hk
    · exact .inr (.inl ⟨hv, ‹_›, by cases hk; rfl⟩)
    · exact .inr (.inr ⟨hv, by omega, by cases hk; rw [memRead_all hl]⟩)

/-- What DEC_MSG can do when it answers a next state. -/
theorem execDecMsg_cases {n : Nat} {s t : State} (h : execDecMsg n s = .next t) :
    s.halted = false ∧ s.opnd.length = n ∧
    ((s.keyValid = false ∧ t = raiseRecoverable .errNoKey s) ∨
     (s.keyValid = true ∧ s.cfg.maxMsgLen < n ∧ t = raiseRecoverable .errLengthLimit s) ∨
     (s.keyValid = true ∧ n ≤ s.cfg.maxMsgLen ∧ n % 8 ≠ 0 ∧ t = raiseFatal .fatalMsgLength s) ∨
     (s.keyValid = true ∧ n = 0 ∧ s.cfg.emptyDecrypt = .fatal ∧
       t = raiseFatal .fatalEmptyInput s) ∨
     (s.keyValid = true ∧ n = 0 ∧ s.cfg.emptyDecrypt = .returnEmpty ∧ t = respond .ok [] s) ∨
     (s.keyValid = true ∧ n ≤ s.cfg.maxMsgLen ∧ n % 8 = 0 ∧ 8 ≤ n ∧
       t = respond .ok (decryptMessage s.cfg.tables s.ks s.opnd) s)) := by
  obtain ⟨hr, hl, hk⟩ := whenStarted_next h
  refine ⟨hr, hl, ?_⟩
  split at hk
  · exact .inl ⟨‹_›, by cases hk; rfl⟩
  · have hv : s.keyValid = true := by simpa using ‹¬s.keyValid = false›
    split at hk
    · exact .inr (.inl ⟨hv, ‹_›, by cases hk; rfl⟩)
    · split at hk
      · exact .inr (.inr (.inl ⟨hv, by omega, ‹_›, by cases hk; rfl⟩))
      · split at hk
        · split at hk
          · exact .inr (.inr (.inr (.inl ⟨hv, ‹_›, ‹_›, by cases hk; rfl⟩)))
          · exact .inr (.inr (.inr (.inr (.inl ⟨hv, ‹_›, ‹_›, by cases hk; rfl⟩))))
        · refine .inr (.inr (.inr (.inr (.inr ⟨hv, by omega, by omega, by omega, ?_⟩))))
          cases hk
          rw [memRead_all hl]

/-- What the engine finds at its port when it finds a whole request: it runs, and the request's bytes
are a header and exactly LEN operand bytes. -/
theorem fetch_request {s s' : State} {h : Word64} (hf : fetch s = .request h s') :
    s.halted = false ∧ ∃ bytes rest operand, s.inbox = .request bytes :: rest ∧
      splitRequest bytes = some (h, operand) ∧ operand.length = headerLen h ∧
      s' = (s.setInbox rest).setOpnd operand := by
  unfold fetch at hf
  split at hf
  · split at hf <;> cases hf
  · cases hf
  · next bytes rest hin =>
    split at hf
    · split at hf <;> cases hf
    · split at hf
      · cases hf
      · next h' operand hs =>
        split at hf
        · cases hf
        · split at hf
          · cases hf
          · cases hf
            exact ⟨by simpa using ‹¬s.halted = true›, bytes, rest, operand, hin, hs, by omega, rfl⟩

/-- Where a reset is taken from: the head of the port, or after a request a halted engine left
unanswered. -/
theorem fetch_reset {s : State} {rest : List HostInput} (hf : fetch s = .reset rest) :
    s.inbox = .reset :: rest ∨
      (s.halted = true ∧ ∃ bytes, s.inbox = .request bytes :: .reset :: rest) := by
  unfold fetch at hf
  split at hf
  · split at hf <;> cases hf
  · next hin => cases hf; exact .inl hin
  · next bytes rest' hin =>
    split at hf
    · split at hf
      · cases hf; exact .inr ⟨‹_›, bytes, hin⟩
      · cases hf
    · split at hf
      · cases hf
      · split at hf
        · cases hf
        · split at hf <;> cases hf

/-- The engine is idle when it runs and has no request. -/
theorem fetch_idle {s : State} (hf : fetch s = .idle) : s.halted = false ∧ s.inbox = [] := by
  unfold fetch at hf
  split at hf
  · next hin =>
    split at hf
    · cases hf
    · exact ⟨by simpa using ‹¬s.halted = true›, hin⟩
  · cases hf
  · split at hf
    · split at hf <;> cases hf
    · split at hf
      · cases hf
      · split at hf
        · cases hf
        · split at hf <;> cases hf

/-- Everything a step can do when it answers a next state. -/
theorem step_cases {s t : State} (h : step s = .next t) :
    (fetch s = .idle ∧ t = s) ∨
    (∃ rest, fetch s = .reset rest ∧ t = applyReset rest s) ∨
    (∃ hd s' e, fetch s = .request hd s' ∧ decodeHeader hd = .error e ∧
      t = raiseRecoverable .errIllegalCommand s') ∨
    (∃ hd s' i, fetch s = .request hd s' ∧ decodeHeader hd = .ok i ∧ exec i s' = .next t) := by
  unfold step at h
  split at h
  · cases h; exact .inl ⟨‹_›, rfl⟩
  · cases h; exact .inr (.inl ⟨_, ‹_›, rfl⟩)
  · cases h
  · cases h
  · split at h
    · exact .inr (.inr (.inr ⟨_, _, _, ‹_›, ‹_›, h⟩))
    · cases h; exact .inr (.inr (.inl ⟨_, _, _, ‹_›, ‹_›, rfl⟩))

/-- A run of one step more, on any machine: the step, then the run from the state it answers. -/
theorem run_succ (M : Host.Core) (n : Nat) (s : M.State) :
    M.run (n + 1) s = match M.step s with
      | .next t => M.run n t
      | .fault r => .fault r
      | .refused r => .refused r := by
  cases h : M.step s <;> simp only [Host.Core.run, h]

/-- A run of this machine that starts with a step to a next state. -/
theorem core_run_of_step_next {n : Nat} {s t : State} (h : step s = .next t) :
    core.run (n + 1) s = core.run n t := by
  refine (run_succ core n s).trans ?_
  have h' : core.step s = .next t := h
  simp only [h']

/-- A run of this machine that starts with a fault. -/
theorem core_run_of_step_fault {n : Nat} {s : State} {f : Fault} (h : step s = .fault f) :
    core.run (n + 1) s = .fault f := by
  refine (run_succ core n s).trans ?_
  have h' : core.step s = .fault f := h
  simp only [h']

end Sys2Proof.Machine
end

