-- ==== Sys2Proof/Laws/PerInstr.lean ====
section
/-! SUPPORT. The form of every command's request header (30_encoding.md R71, R73): its three fields. -/

namespace Sys2Proof.Laws.HeaderFields

/-- The header of a well-formed command has its LEN in bits 63:32, zero in bits 31:8 and its OP in bits
7:0 (R71). -/
def Statement (i : Instr) : Prop :=
  i.WellFormed → headerLen (encodeHeader i) = i.len ∧ headerRsv (encodeHeader i) = 0#24 ∧
    headerOp (encodeHeader i) = i.opcode

/-- The three fields of a header put together from a length and an OP. -/
theorem fields_of_append (n : Nat) (op : BitVec 8) (hn : n < 2 ^ 32) :
    headerLen (BitVec.ofNat 32 n ++ 0#24 ++ op) = n ∧
    headerRsv (BitVec.ofNat 32 n ++ 0#24 ++ op) = 0#24 ∧
    headerOp (BitVec.ofNat 32 n ++ 0#24 ++ op) = op := by
  have hop := op.isLt
  have key : (BitVec.ofNat 32 n ++ 0#24 ++ op : BitVec 64).toNat = n * 2 ^ 32 + op.toNat := by
    rw [BitVec.toNat_append, BitVec.toNat_append, ← Nat.shiftLeft_add_eq_or_of_lt hop,
      ← Nat.shiftLeft_add_eq_or_of_lt (by simp)]
    simp only [Nat.shiftLeft_eq, BitVec.toNat_ofNat]
    omega
  refine ⟨?_, ?_, ?_⟩
  · simp only [headerLen, BitVec.extractLsb'_toNat, key, Nat.shiftRight_eq_div_pow]; omega
  · apply BitVec.eq_of_toNat_eq
    simp only [headerRsv, BitVec.extractLsb'_toNat, key, Nat.shiftRight_eq_div_pow, BitVec.toNat_ofNat]
    omega
  · apply BitVec.eq_of_toNat_eq
    simp only [headerOp, BitVec.extractLsb'_toNat, key, Nat.shiftRight_eq_div_pow]
    omega

theorem keyLoad (len : Nat) : Statement (.keyLoad len) := fields_of_append len 0x01#8
theorem encBlock (len : Nat) : Statement (.encBlock len) := fields_of_append len 0x02#8
theorem decBlock (len : Nat) : Statement (.decBlock len) := fields_of_append len 0x03#8
theorem encMsg (len : Nat) : Statement (.encMsg len) := fields_of_append len 0x04#8
theorem decMsg (len : Nat) : Statement (.decMsg len) := fields_of_append len 0x05#8

end Sys2Proof.Laws.HeaderFields
end

