-- ==== Sys2Proof/Tests/Slice0.lean ====
section
/-! SUPPORT. Tests of single operations and single steps against the values spec/ prints, and a witness
for the hypotheses of every statement. -/

namespace Sys2Proof.Tests

open Sys2Proof.Machine

/-! ### Builders of small states -/

/-- The smallest legal MAX_MSG_LEN with the default tables, as program P5 uses it
(95_test_vectors.md section 7). -/
def smallConfig (e : EmptyDecrypt) : Config := ⟨fips46, 16, e⟩

/-- The key `CHAVE123` (95_test_vectors.md section 3). -/
def chave123 : List Byte := bytes64 0x4348415645313233#64

/-- A running engine with the small configuration, an operand in OPND and no key. -/
def unkeyed (operand : List Byte) : State :=
  { State.reset with opnd := operand, cfg := smallConfig .fatal }

/-- The same after `KEY_LOAD "CHAVE123"`. -/
def keyed (operand : List Byte) : State :=
  { unkeyed operand with keyValid := true, ks := keySchedule fips46 chave123 }

/-- A keyed engine that returns nothing for an empty ciphertext. -/
def lenient (operand : List Byte) : State := { keyed operand with cfg := smallConfig .returnEmpty }

/-- The engine with the given interactions at its port. -/
def atPort (inputs : List HostInput) (s : State) : State := { s with inbox := inputs }

/-- The engine after a fatal violation. -/
def halted (s : State) : State := { s with halted := true }

/-- A request of a header word and operand bytes. -/
def req (h : Word64) (operand : List Byte) : HostInput := .request (bytes64 h ++ operand)

/-- `n` operand bytes of zero. -/
def zeros (n : Nat) : List Byte := List.replicate n 0#8

/-- What a step or a command leaves to be seen: the last response, KEY_VALID and HALTED. -/
def seen : Host.Outcome State Fault Refusal → Option (Option Response × Bool × Bool)
  | .next t => some (t.outbox.getLast?, t.keyValid, t.halted)
  | _ => none

/-- Why an outcome is no next state. -/
def stop : Host.Outcome State Fault Refusal → Option (Fault ⊕ Refusal)
  | .next _ => none
  | .fault f => some (.inl f)
  | .refused r => some (.inr r)

/-! ### Well-formedness: an ill-formed term for each check -/

theorem test_len_of_33_bits_is_ill_formed : ¬ (Instr.encMsg (2 ^ 32)).WellFormed := by decide

theorem test_operand_shorter_than_len_is_ill_formed :
    ¬ RequestWellFormed (.keyLoad 8) (zeros 7) := by decide

theorem test_operand_longer_than_len_is_ill_formed :
    ¬ RequestWellFormed (.encBlock 8) (zeros 9) := by decide

theorem test_key_load_request_is_well_formed : RequestWellFormed (.keyLoad 8) chave123 := by decide

theorem test_table_with_a_doubled_position_is_invalid :
    ¬ blockTablesValid { fips46 with ip := fips46.ip.set 0 1 } := by decide +kernel

/-! ### Decoding: words written out from R71, R74 and R78 -/

/-- R74's own example: the header of a KEY_LOAD of 8 bytes, with the operand of R81's example. -/
theorem test_decode_key_load :
    decode [0x00, 0x00, 0x00, 0x08, 0x00, 0x00, 0x00, 0x01,
      0x43, 0x48, 0x41, 0x56, 0x45, 0x31, 0x32, 0x33] = .ok (.keyLoad 8, chave123) := by decide

/-- LEN of an ENC_BLOCK in the most significant byte of its field. -/
theorem test_decode_enc_block :
    decode [0x80, 0x00, 0x00, 0x00, 0x00, 0x00, 0x00, 0x02] = .ok (.encBlock 2147483648, []) := by
  decide

theorem test_decode_dec_block :
    decode [0x01, 0x02, 0x03, 0x04, 0x00, 0x00, 0x00, 0x03] = .ok (.decBlock 16909060, []) := by
  decide

theorem test_decode_enc_msg :
    decode [0x00, 0x00, 0x00, 0x04, 0x00, 0x00, 0x00, 0x04, 0x54, 0x45, 0x53, 0x54] =
      .ok (.encMsg 4, [0x54, 0x45, 0x53, 0x54]) := by decide

theorem test_decode_dec_msg :
    decode [0xFF, 0xFF, 0xFF, 0xFF, 0x00, 0x00, 0x00, 0x05] = .ok (.decMsg 4294967295, []) := by
  decide

/-- OP 0x00 and 0x06 are unassigned; a reserved bit at either end of RSV makes the header illegal (R80;
95_test_vectors.md P4). -/
theorem test_decode_illegal :
    decodeHeader 0x0000000000000000#64 = .error .unassignedOpcode ∧
    decodeHeader 0x0000000000000006#64 = .error .unassignedOpcode ∧
    decodeHeader 0x0000000800000102#64 = .error .reservedBitsSet ∧
    decodeHeader 0x0000000880000002#64 = .error .reservedBitsSet := by decide

theorem test_encode_key_load :
    encode (.keyLoad 8) = [0x00, 0x00, 0x00, 0x08, 0x00, 0x00, 0x00, 0x01] := by decide

/-- The table's words for its five rows (opcode_table.json), with LEN 0. -/
theorem test_table_words :
    (List.range 7).map (decodeTableWord 64) =
      [none, some (.keyLoad 0), some (.encBlock 0), some (.decBlock 0), some (.encMsg 0),
       some (.decMsg 0), none] := by decide

/-- A table word longer than its header gives operand bytes from bit 64 on. -/
theorem test_table_word_operand :
    tableRequest 80 0x02010000000200000004 =
      [0x00, 0x00, 0x00, 0x02, 0x00, 0x00, 0x00, 0x04, 0x01, 0x02] := by decide

/-- A placed word is served by the next step: ENC_MSG of nothing right after reset has no key (R224). -/
theorem test_placed_word_is_served :
    seen (step (State.reset.withFetchWord 64 4)) =
      some (some ⟨0x0000000000000002#64, []⟩, false, false) := by decide

/-! ### Primitives (40_tables_and_primitives.md, 95_test_vectors.md section 4) -/

/-- R100's worked example. -/
theorem test_permute_position_one :
    permute fips46.ip 0x8000000000000000#64 = 0x0000000001000000#64 := by decide +kernel

/-- R10: bits shifted out on the left come in on the right. -/
theorem test_rotl28 : rotl28 0x8000001#28 1 = 0x0000003#28 ∧ rotl28 0xC000000#28 2 = 0x0000003#28 := by
  decide

/-- R110: the corner selections, and its worked example `S_0(0x21) = 15`. -/
theorem test_row_and_column :
    [0x00#6, 0x01#6, 0x20#6, 0x21#6, 0x3F#6, 0x1E#6].map (fun x => (sboxRow x, sboxCol x)) =
      [(0, 0), (1, 0), (2, 0), (3, 0), (3, 15), (0, 15)] ∧
    substitute fips46 0 0x21#6 = 15 := by decide

/-- R155's corner case and worked example. -/
theorem test_round_function :
    roundF fips46 0x00000000#32 0x000000000000#48 = 0xD8D8DBBC#32 ∧
    permute fips46.e 0xF0AAF0AA#32 = 0x7A15557A1555#48 ∧
    substituteAll fips46 0x6117BA866527#48 = 0x5C82B597#32 ∧
    roundF fips46 0xF0AAF0AA#32 0x1B02EFFC7072#48 = 0x234AA9BB#32 := by decide +kernel

/-- R191's empty message, and R195's corner LEN = 7. -/
theorem test_pad :
    pad [] = [8, 8, 8, 8, 8, 8, 8, 8] ∧
    pad [0x31, 0x32, 0x33, 0x34, 0x35, 0x36, 0x37] = [0x31, 0x32, 0x33, 0x34, 0x35, 0x36, 0x37, 1] := by
  decide

/-- R193's example, and the corners of 95_test_vectors.md section 6.2. -/
theorem test_unpad :
    unpad [0x41, 0x42, 0x43, 1, 2, 3, 4, 5] = [0x41, 0x42, 0x43] ∧
    unpad (bytes64 0x4142434445464709#64) = bytes64 0x4142434445464709#64 ∧
    unpad (bytes64 0x4142434445464700#64) = bytes64 0x4142434445464700#64 ∧
    unpad (bytes64 0x41424344454647FF#64) = bytes64 0x41424344454647FF#64 ∧
    unpad (bytes64 0x0808080808080808#64) = [] := by decide

/-- R192: a candidate above the length is no padding. -/
theorem test_unpad_short : unpad [3, 3] = [3, 3] := by decide

/-! ### Commands: at most two each, results from the rules' worked examples and 95_test_vectors.md -/

/-- R135's worked example. -/
theorem test_key_load_subkeys :
    (keySchedule fips46 chave123).get 0 = 0xF082A241030B#48 ∧
    (keySchedule fips46 chave123).get 15 = 0xC086AA83A046#48 := by decide +kernel

/-- P4, request 6: 9 bytes are no key, and the earlier key stays in force. -/
theorem test_key_load_of_nine_bytes :
    seen (exec (.keyLoad 9) (keyed (zeros 9))) =
      some (some ⟨0x0000000000000003#64, []⟩, true, false) := by decide

/-- R175's worked example. -/
theorem test_enc_block_zero :
    seen (exec (.encBlock 8) (keyed (zeros 8))) =
      some (some ⟨0x0000000800000000#64, bytes64 0xD9D5C5CD785340F5#64⟩, true, false) := by
  decide +kernel

/-- 95_test_vectors.md section 5.2, the classic vector. -/
theorem test_block_core_classic_vector :
    blockCore fips46 (keySchedule fips46 (bytes64 0x133457799BBCDFF1#64)) .enc
      (bytes64 0x0123456789ABCDEF#64) = bytes64 0x85E813540F0AB405#64 := by decide +kernel

/-- R178's second worked example. -/
theorem test_dec_block_zero :
    seen (exec (.decBlock 8) (keyed (zeros 8))) =
      some (some ⟨0x0000000800000000#64, bytes64 0x0B67605875728AD1#64⟩, true, false) := by
  decide +kernel

/-- 95_test_vectors.md section 5.3: any length but 8 is fatal. -/
theorem test_dec_block_of_sixteen_bytes :
    seen (exec (.decBlock 16) (keyed (zeros 16))) =
      some (some ⟨0x0000000000000080#64, []⟩, true, true) := by decide

/-- R195's worked example, `ENC_MSG "TEST"`. -/
theorem test_enc_msg_test :
    seen (exec (.encMsg 4) (keyed [0x54, 0x45, 0x53, 0x54])) =
      some (some ⟨0x0000000800000000#64, bytes64 0x1BA116BA53425602#64⟩, true, false) := by
  decide +kernel

/-- 95_test_vectors.md section 6.1: an aligned message gets a whole block of padding. -/
theorem test_enc_msg_aligned :
    seen (exec (.encMsg 8) (keyed (bytes64 0x4142434445464748#64))) =
      some (some ⟨0x0000001000000000#64,
        bytes64 0x1E9726217CA6B0A9#64 ++ bytes64 0xCDE4097C014087C3#64⟩, true, false) := by
  decide +kernel

/-- R199's worked example. -/
theorem test_dec_msg_test :
    seen (exec (.decMsg 8) (keyed (bytes64 0x1BA116BA53425602#64))) =
      some (some ⟨0x0000000400000000#64, [0x54, 0x45, 0x53, 0x54]⟩, true, false) := by
  decide +kernel

/-- 95_test_vectors.md section 6.2: a last byte of 9 is no padding, and the status is OK (R198). -/
theorem test_dec_msg_without_padding :
    seen (exec (.decMsg 8) (keyed (bytes64 0x6F52E445E1DF0575#64))) =
      some (some ⟨0x0000000800000000#64, bytes64 0x4142434445464709#64⟩, true, false) := by
  decide +kernel

/-! ### The port, HALTED and reset: single steps of the programs of 95_test_vectors.md section 7 -/

/-- P2, request 3: a missing key is reported before a bad length, and the engine does not halt. -/
theorem test_no_key_wins_over_length :
    seen (step (atPort [req 0x0000000700000002#64 (zeros 7)] (unkeyed []))) =
      some (some ⟨0x0000000000000002#64, []⟩, false, false) := by decide

/-- P3, request 4: 12 bytes are no whole number of blocks. -/
theorem test_dec_msg_of_twelve_bytes_halts :
    seen (step (atPort [req 0x0000000C00000005#64 (zeros 12)] (keyed []))) =
      some (some ⟨0x0000000000000081#64, []⟩, true, true) := by decide

/-- P3, request 5: a halted engine takes no request. -/
theorem test_halted_engine_takes_no_request :
    stop (step (atPort [req 0x0000000800000002#64 (zeros 8)] (halted (keyed [])))) =
      some (.inl .halted) := by decide

/-- P3: the reset discards request 5 and clears both flags. -/
theorem test_reset_discards_the_outstanding_request :
    seen (step (atPort [req 0x0000000800000002#64 (zeros 8), .reset] (halted (keyed [])))) =
      some (none, false, false) := by decide

/-- P4, request 4: RSV = 1. -/
theorem test_reserved_bit_is_illegal :
    seen (step (atPort [req 0x0000000800000102#64 (zeros 8)] (keyed []))) =
      some (some ⟨0x0000000000000001#64, []⟩, true, false) := by decide

/-- P5a, request 3, and P5a's last: MAX_MSG_LEN = 16, and the empty ciphertext. -/
theorem test_limits_of_p5a :
    seen (exec (.encMsg 17) (keyed (zeros 17))) =
      some (some ⟨0x0000000000000004#64, []⟩, true, false) ∧
    seen (exec (.decMsg 0) (keyed [])) = some (some ⟨0x0000000000000082#64, []⟩, true, true) := by
  decide

/-- P5b, request 2. -/
theorem test_empty_ciphertext_returns_empty :
    seen (exec (.decMsg 0) (lenient [])) = some (some ⟨0x0000000000000000#64, []⟩, true, false) := by
  decide

/-- R256: a request of which one byte has not arrived is not started (log 9). -/
theorem test_incomplete_request :
    stop (step (atPort [req 0x0000000800000002#64 (zeros 7)] (keyed []))) =
      some (.inr .incompleteRequest) := by decide

/-! ### The assembler (30_encoding.md R81, R82) -/

/-- R81's example, with a comment, and its alias. -/
theorem test_assemble_key_load :
    assembleLine "KEY_LOAD \"CHAVE123\"   ; CONSTRUCT".toList =
      .ok (some (bytes64 0x0000000800000001#64 ++ chave123)) ∧
    assembleLine "CONSTRUCT 0x4348415645313233".toList =
      .ok (some (bytes64 0x0000000800000001#64 ++ chave123)) := by decide +kernel

/-- P4, requests 3 and 4, and a RAW line whose LEN is not the number of its operand bytes. -/
theorem test_assemble_raw :
    assembleLine "RAW 0x0000000000000006 0x".toList = .ok (some (bytes64 0x0000000000000006#64)) ∧
    assembleLine "RAW 0x0000000800000102 0x0000000000000000".toList =
      .ok (some (bytes64 0x0000000800000102#64 ++ zeros 8)) ∧
    assembleLine "RAW 0x0000000800000102 0x00".toList = .error .rawLengthMismatch := by
  decide +kernel

/-- The empty operand in its two spellings, and bare pairs with spaces (R81). -/
theorem test_assemble_operands :
    assembleLine "ENC_MSG \"\"".toList = .ok (some (bytes64 0x0000000000000004#64)) ∧
    assembleLine "DECRYPT 0x".toList = .ok (some (bytes64 0x0000000000000005#64)) ∧
    assembleLine "ENC_MSG 54 45 5354".toList =
      .ok (some (bytes64 0x0000000400000004#64 ++ [0x54, 0x45, 0x53, 0x54])) := by decide +kernel

/-! ### Witnesses: states and operands that meet the hypotheses of each statement -/

/-- A table record that is not the default one: IP and FP leave every bit in its place. -/
def plainTables : Tables :=
  { fips46 with ip := Vector.ofFn fun i => i.val + 1, fp := Vector.ofFn fun i => i.val + 1 }

theorem plain_block_tables : blockTablesValid plainTables := by decide +kernel
theorem plain_round_tables : roundTablesValid plainTables := by decide +kernel
theorem plain_key_tables : keyTablesValid plainTables := by decide +kernel
theorem plain_sbox_tables : sboxTablesValid plainTables := by decide +kernel

theorem plain_tables_valid : tablesValid plainTables :=
  ⟨plain_block_tables, plain_round_tables, plain_key_tables, plain_sbox_tables⟩

/-- An engine with those tables. -/
def plain (operand : List Byte) : State :=
  { keyed operand with cfg := ⟨plainTables, 16, .fatal⟩, ks := keySchedule plainTables chave123 }

theorem plain_config_valid (operand : List Byte) : configValid (plain operand).cfg :=
  ⟨plain_tables_valid, Nat.le_refl 16, show 16 ≤ 2 ^ 32 - 9 by decide⟩

theorem witness_DecodeOfEncodedRequest :
    (Instr.keyLoad 0).WellFormed ∧ (Instr.decMsg 4294967295).WellFormed := by decide

theorem witness_DecodedBytesAreTheEncoding :
    decode [0, 0, 0, 2, 0, 0, 0, 4, 0x41, 0x42] = .ok (.encMsg 2, [0x41, 0x42]) := by decide

theorem witness_ResponseHeaderFields : 0 < 2 ^ 32 ∧ 2 ^ 32 - 1 < 2 ^ 32 := by decide

theorem witness_BytesAndBlockValuesConvertBothWays : chave123.length = 8 ∧ 0 < 8 ∧ 7 < 8 := by decide

theorem witness_StepRunsTheDecodedCommand :
    Running (atPort [req 0x0000000800000001#64 chave123] (unkeyed [])) ∧
    (atPort [req 0x0000000800000001#64 chave123] (unkeyed [])).inbox =
      .request (encodeRequest (.keyLoad 8) chave123) :: [] ∧
    decode (encodeRequest (.keyLoad 8) chave123) = .ok (.keyLoad 8, chave123) ∧
    RequestWellFormed (.keyLoad 8) chave123 := by decide

theorem witness_PlacedTableWordRuns :
    decodeTableWord 64 0x0000000800000002 = some (.encBlock 8) := by decide

/-- The port hypotheses that several statements share, for one header and its operand. -/
theorem witness_whole_request (s : State) (hr : Running s) (h : Word64) (operand : List Byte)
    (hl : operand.length = headerLen h) :
    Running (atPort [req h operand] s) ∧
    (atPort [req h operand] s).inbox = .request (bytes64 h ++ operand) :: [] ∧
    WholeRequest (bytes64 h ++ operand) h operand := ⟨hr, rfl, rfl, hl⟩

/-- OP 0x00, OP 0x06, OP 0xFF, and a set reserved bit beside a legal OP. -/
def illegalHeaders : List Word64 :=
  [0x0000000000000000#64, 0x0000000000000006#64, 0x00000000000000FF#64, 0x0000000080000001#64]

/-- Each illegal header as a whole request. -/
theorem witness_IllegalRequestIsAnsweredAndIgnored (h : Word64) (hh : h ∈ illegalHeaders) :
    Running (atPort [req h []] (keyed [])) ∧
    (atPort [req h []] (keyed [])).inbox = .request (bytes64 h ++ []) :: [] ∧
    WholeRequest (bytes64 h ++ []) h [] ∧
    (h.toNat % 2 ^ 8 = 0 ∨ 6 ≤ h.toNat % 2 ^ 8 ∨ h.toNat / 2 ^ 8 % 2 ^ 24 ≠ 0) := by
  have all : (illegalHeaders.all fun x => decide (headerLen x = 0 ∧
      (x.toNat % 2 ^ 8 = 0 ∨ 6 ≤ x.toNat % 2 ^ 8 ∨ x.toNat / 2 ^ 8 % 2 ^ 24 ≠ 0))) = true := by
    decide +kernel
  have key := of_decide_eq_true (List.all_eq_true.mp all h hh)
  exact ⟨rfl, rfl, ⟨rfl, key.1.symm⟩, key.2⟩

theorem witness_EveryWholeRequestGetsOneResponse :
    Running (atPort [req 0x0000000100000007#64 [0xAA]] (keyed [])) ∧
    (atPort [req 0x0000000100000007#64 [0xAA]] (keyed [])).inbox =
      .request (bytes64 0x0000000100000007#64 ++ [0xAA]) :: [] ∧
    WholeRequest (bytes64 0x0000000100000007#64 ++ [0xAA]) 0x0000000100000007#64 [0xAA] :=
  witness_whole_request (keyed []) rfl _ _ rfl

/-- For each line of R225 headers that meet its test and no earlier one, and whether a key is loaded. -/
def headersByCheck : List (Bool × Word64) :=
  [(false, 0x0000000800000102#64), (false, 0x0000000000000000#64), (false, 0x0000000000000006#64),
   (false, 0x0000000700000001#64), (false, 0x0000000900000001#64), (false, 0x0000000800000001#64),
   (false, 0x0000000700000002#64), (true, 0x0000001100000004#64), (true, 0x0000001800000005#64),
   (true, 0x0000000700000002#64), (true, 0x0000000900000003#64), (true, 0x0000000C00000005#64),
   (true, 0x0000000000000005#64), (true, 0x0000001000000004#64)]

/-- The engine that serves such a request, keyed or not. -/
def checkEngine (hasKey : Bool) : State := if hasKey then keyed [] else unkeyed []

theorem witness_FirstErrorConditionWins (c : Bool × Word64) (hc : c ∈ headersByCheck) :
    Running (atPort [req c.2 (zeros (headerLen c.2))] (checkEngine c.1)) ∧
    (atPort [req c.2 (zeros (headerLen c.2))] (checkEngine c.1)).inbox =
      .request (bytes64 c.2 ++ zeros (headerLen c.2)) :: [] ∧
    WholeRequest (bytes64 c.2 ++ zeros (headerLen c.2)) c.2 (zeros (headerLen c.2)) ∧
    headerLen c.2 = c.2.toNat / 2 ^ 32 := by
  have all : (headersByCheck.all fun x => decide (headerLen x.2 = x.2.toNat / 2 ^ 32)) = true := by
    decide +kernel
  have hr : Running (checkEngine c.1) := by cases c.1 <;> rfl
  exact ⟨hr, rfl, ⟨rfl, List.length_replicate⟩, of_decide_eq_true (List.all_eq_true.mp all c hc)⟩

/-- The status each of those requests gets, in the order of R225's tests, and HALTED. -/
theorem test_order_of_checks :
    headersByCheck.map (fun c => (seen (step (atPort [req c.2 (zeros (headerLen c.2))]
      (checkEngine c.1)))).map fun r => (r.1.map fun x => x.header.toNat % 2 ^ 8, r.2.2)) =
    [some (some 1, false), some (some 1, false), some (some 1, false), some (some 3, false),
     some (some 3, false), some (some 0, false), some (some 2, false), some (some 4, false),
     some (some 4, false), some (some 0x80, true), some (some 0x80, true), some (some 0x81, true),
     some (some 0x82, true), some (some 0, false)] := by decide +kernel

/-- Seven bytes, and a header with one operand byte too few and one too many. -/
theorem witness_OnlyWholeRequestsStart :
    Running (atPort [.request (zeros 7)] (keyed [])) ∧ (zeros 7).length < 8 ∧
    (zeros 7).length < headerLen 0x0000000800000002#64 ∧
    headerLen 0x0000000800000002#64 < (zeros 9).length := by decide

theorem witness_IdleEngineKeepsItsState :
    Running (keyed []) ∧ (keyed []).inbox = [] := ⟨rfl, rfl⟩

/-- Two whole requests; the second halts the engine, the first does not. -/
theorem witness_RunAnswersEveryRequest :
    Running (atPort [req 0x0000000000000006#64 [], req 0x0000000100000002#64 [0xAA]] (keyed [])) ∧
    (∀ q ∈ [((0x0000000000000006#64 : Word64), ([] : List Byte)), (0x0000000100000002#64, [0xAA])],
      q.2.length = headerLen q.1) ∧
    (atPort [req 0x0000000000000006#64 [], req 0x0000000100000002#64 [0xAA]] (keyed [])).inbox =
      [((0x0000000000000006#64 : Word64), ([] : List Byte)), (0x0000000100000002#64, [0xAA])].map
        (fun q => HostInput.request (bytes64 q.1 ++ q.2)) := by
  refine ⟨rfl, ?_, rfl⟩
  decide

/-- A list whose first request halts the engine, and the run that then stops with the fault. -/
theorem witness_RunAnswersEveryRequest_halted :
    Running (atPort [req 0x0000000100000002#64 [0xAA], req 0x0000000000000006#64 []] (keyed [])) ∧
    (∀ q ∈ [((0x0000000100000002#64 : Word64), ([0xAA] : List Byte)), (0x0000000000000006#64, [])],
      q.2.length = headerLen q.1) ∧
    (atPort [req 0x0000000100000002#64 [0xAA], req 0x0000000000000006#64 []] (keyed [])).inbox =
      [((0x0000000100000002#64 : Word64), ([0xAA] : List Byte)), (0x0000000000000006#64, [])].map
        (fun q => HostInput.request (bytes64 q.1 ++ q.2)) ∧
    core.run 2 (atPort [req 0x0000000100000002#64 [0xAA], req 0x0000000000000006#64 []] (keyed [])) =
      .fault .halted := by
  refine ⟨rfl, ?_, rfl, rfl⟩
  decide

theorem witness_ResetSignalClearsBothFlags :
    (atPort [.reset] (keyed [])).inbox = .reset :: [] ∧
    (atPort [.reset] (halted (keyed []))).inbox = .reset :: [] ∧
    (halted (keyed [])).halted = true ∧
    (atPort [.request (zeros 8), .reset] (halted (keyed []))).inbox =
      .request (zeros 8) :: .reset :: [] := ⟨rfl, rfl, rfl, rfl⟩

/-- A step that clears KEY_VALID, and one that clears HALTED after an unanswered request. -/
theorem witness_OnlyResetClearsAFlag :
    (∃ t, step (atPort [.reset] (keyed [])) = .next t ∧
      (atPort [.reset] (keyed [])).keyValid = true ∧ t.keyValid = false) ∧
    (∃ t, step (atPort [.request (zeros 8), .reset] (halted (keyed []))) = .next t ∧
      (halted (keyed [])).halted = true ∧ t.halted = false) :=
  ⟨⟨_, rfl, rfl, rfl⟩, ⟨_, rfl, rfl, rfl⟩⟩

theorem witness_HaltedEngineHasNoStep :
    (halted (keyed [])).halted = true ∧
    (∀ rest, (halted (keyed [])).inbox ≠ .reset :: rest) ∧
    (∀ bytes rest, (halted (keyed [])).inbox ≠ .request bytes :: .reset :: rest) ∧
    (∀ rest, (atPort [.request (zeros 8)] (halted (keyed []))).inbox ≠ .reset :: rest) ∧
    (∀ bytes rest, (atPort [.request (zeros 8)] (halted (keyed []))).inbox ≠
      .request bytes :: .reset :: rest) := by
  refine ⟨rfl, ?_, ?_, ?_, ?_⟩ <;> simp [atPort, halted, keyed, unkeyed, State.reset]

/-- A short key (P2, request 2). -/
theorem witness_RecoverableErrorChangesNoState :
    ∃ t r, step (atPort [req 0x0000000700000001#64 (zeros 7)] (unkeyed [])) = .next t ∧
      t.outbox = (unkeyed []).outbox ++ [r] ∧ 1 ≤ r.header.toNat % 2 ^ 8 ∧
      r.header.toNat % 2 ^ 8 < 0x80 :=
  ⟨_, ⟨0x0000000000000003#64, []⟩, rfl, rfl, by decide, by decide⟩

/-- A short block (R175). -/
theorem witness_FatalErrorSetsOnlyHalted :
    ∃ t r, step (atPort [req 0x0000000700000002#64 (zeros 7)] (keyed [])) = .next t ∧
      t.outbox = (keyed []).outbox ++ [r] ∧ 0x80 ≤ r.header.toNat % 2 ^ 8 :=
  ⟨_, ⟨0x0000000000000080#64, []⟩, rfl, rfl, by decide⟩

theorem witness_CryptoCommandWithoutKey :
    (∀ n, Instr.decMsg 7 ≠ .keyLoad n) ∧ Ready (Instr.decMsg 7).len (unkeyed (zeros 7)) ∧
    (unkeyed (zeros 7)).keyValid = false := by
  refine ⟨by simp, ?_, rfl⟩
  decide

/-- A keyed engine with a response delivered, and its next step. -/
theorem witness_StepKeepsMachineInvariant :
    ∃ t, MachineInvariant { plain [] with inbox := [req 0x0000000000000006#64 []],
                                          outbox := [responseOf .ok [0xAA]] } ∧
      step { plain [] with inbox := [req 0x0000000000000006#64 []],
                           outbox := [responseOf .ok [0xAA]] } = .next t := by
  refine ⟨_, ⟨plain_config_valid [], rfl, fun _ => ⟨chave123, rfl, rfl⟩, ?_⟩, rfl⟩
  intro r hr
  have : r = responseOf .ok [0xAA] := by simpa using hr
  subst this
  exact ⟨.ok, rfl, by decide, by decide⟩

/-- One step of each kind: a KEY_LOAD, a reset, and a reset of a halted engine. -/
theorem witness_OnlyKeyLoadWritesSubkeys :
    (∃ t, step (atPort [req 0x0000000800000001#64 chave123] (unkeyed [])) = .next t) ∧
    (∃ t, step (atPort [.reset] (keyed [])) = .next t) ∧
    (∃ t, step (atPort [.request [], .reset] (halted (keyed []))) = .next t) :=
  ⟨⟨_, rfl⟩, ⟨_, rfl⟩, ⟨_, rfl⟩⟩

theorem witness_ConfigurationIsNeverWritten :
    ∃ t, step (atPort [req 0x0000000000000002#64 []] (unkeyed [])) = .next t := ⟨_, rfl⟩

theorem witness_DeliveredResponsesAreNeverRead :
    ∃ t, step (atPort [req 0x0000000000000005#64 []] (lenient [])) = .next t := ⟨_, rfl⟩

/-- An error without a key, and the first KEY_LOAD. -/
theorem witness_SubkeysUnseenWithoutKey :
    (unkeyed []).keyValid = false ∧
    (∃ t, step (atPort [req 0x0000000000000002#64 []] (unkeyed [])) = .next t ∧ t.keyValid = false) ∧
    (∃ t, step (atPort [req 0x0000000800000001#64 chave123] (unkeyed [])) = .next t ∧
      t.keyValid = true) := ⟨rfl, ⟨_, rfl, rfl⟩, ⟨_, rfl, rfl⟩⟩

theorem witness_CryptoCommandsDoNotAffectLaterOnes :
    (∀ n, Instr.decMsg 0 ≠ .keyLoad n) ∧
    ∃ t u, exec (.decMsg 0) (lenient []) = .next t ∧ t.halted = false ∧
      exec (.keyLoad 7) { lenient [] with opnd := zeros 7 } = .next u :=
  ⟨by simp, _, _, rfl, rfl, rfl⟩

/-- A command that leaves HALTED alone and one that sets it. -/
theorem witness_CryptoCommandFrame :
    (∀ n, Instr.decMsg 0 ≠ .keyLoad n) ∧
    (∃ t, exec (.decMsg 0) (lenient []) = .next t ∧ t.halted = false) ∧
    (∃ t, exec (.decMsg 0) (keyed []) = .next t ∧ t.halted = true) :=
  ⟨by simp, ⟨_, rfl, rfl⟩, ⟨_, rfl, rfl⟩⟩

theorem witness_KeyLoadFrame :
    (∃ t, exec (.keyLoad 8) (unkeyed chave123) = .next t) ∧
    (∃ t, exec (.keyLoad 7) (keyed (zeros 7)) = .next t) ∧
    (∃ t, exec (.keyLoad 9) (keyed (zeros 9)) = .next t) := ⟨⟨_, rfl⟩, ⟨_, rfl⟩, ⟨_, rfl⟩⟩

theorem witness_PermuteMovesEachBit : 0 < 48 ∧ 47 < 48 := by decide

theorem witness_FinalPermutationUndoesInitial : tablesValid plainTables := plain_tables_valid

theorem witness_RoundFunctionByGroups (y : BitVec 48) :
    ∃ (first last : Nat), first = (y.extractLsb' (42 - 6 * (0 : Fin 8).val) 6).toNat ∧
      last = (y.extractLsb' (42 - 6 * (7 : Fin 8).val) 6).toNat := ⟨_, _, rfl, rfl⟩

theorem witness_SubkeysByTotalRotation :
    ∃ (cd : KeyPair) (first last : Nat), cd = permute fips46.pc1 (be64 chave123) ∧
      first = (fips46.shifts.toList.take 1).sum ∧ last = (fips46.shifts.toList.take 16).sum ∧
      first = 1 ∧ last = 28 := ⟨_, _, _, rfl, rfl, rfl, rfl, rfl⟩

theorem witness_KeyHalvesReturnAfterRound16 : tablesValid plainTables := plain_tables_valid

/-- Two keys that differ in all eight parity bits. -/
theorem witness_ParityBitsDoNotReachTheSubkeys :
    tablesValid plainTables ∧ (bytes64 0x4348415645313233#64).length = 8 ∧
    (bytes64 0x4249405744303332#64).length = 8 ∧
    (bytes64 0x4348415645313233#64).map (fun b : Byte => b.toNat / 2) =
      (bytes64 0x4249405744303332#64).map (fun b : Byte => b.toNat / 2) ∧
    bytes64 0x4348415645313233#64 ≠ bytes64 0x4249405744303332#64 := by
  refine ⟨plain_tables_valid, rfl, rfl, ?_, ?_⟩ <;> decide

theorem witness_KeyLoadCompletes :
    Ready 8 (unkeyed chave123) ∧ Ready 8 (keyed chave123) := by decide

theorem witness_KeyLoadOfWrongLength :
    (Ready 0 (keyed []) ∧ 0 ≠ 8) ∧ (Ready 7 (keyed (zeros 7)) ∧ 7 ≠ 8) ∧
    (Ready 9 (keyed (zeros 9)) ∧ 9 ≠ 8) := by decide

theorem witness_BlockCoreByRounds : 0 < 16 ∧ 15 < 16 := by decide

theorem witness_BlockCommandsComplete : Ready 8 (keyed (zeros 8)) ∧ Keyed (keyed (zeros 8)) := by
  decide

theorem witness_BlockLengthViolationHalts :
    (Ready 0 (keyed []) ∧ Keyed (keyed []) ∧ 0 ≠ 8) ∧
    (Ready 7 (keyed (zeros 7)) ∧ Keyed (keyed (zeros 7)) ∧ 7 ≠ 8) ∧
    (Ready 9 (keyed (zeros 9)) ∧ Keyed (keyed (zeros 9)) ∧ 9 ≠ 8) := by decide

theorem witness_DecryptionInvertsEncryption : tablesValid plainTables ∧ (zeros 8).length = 8 :=
  ⟨plain_tables_valid, rfl⟩

theorem witness_PaddingFillsToTheNextBlock :
    8 = 8 - (zeros 0).length % 8 ∧ 1 = 8 - (zeros 7).length % 8 ∧ 8 = 8 - (zeros 8).length % 8 ∧
    (zeros 8).length % 8 = 0 ∧ 16 % 8 = 0 ∧ (zeros 8).length + 1 ≤ 16 := by decide

theorem witness_EcbTransformsEachBlockAlone :
    (zeros 16).length % 8 = 0 ∧ 8 * 0 + 8 ≤ (zeros 16).length ∧ 8 * 1 + 8 ≤ (zeros 16).length := by
  decide

/-- Equal blocks in one message, and the padding blocks of two messages. -/
theorem witness_EqualBlocksEncryptEqually :
    (8 * 0 + 8 ≤ (pad (zeros 16)).length ∧ 8 * 1 + 8 ≤ (pad (zeros 16)).length ∧
      block (pad (zeros 16)) 0 = block (pad (zeros 16)) 1) ∧
    (8 * 1 + 8 ≤ (pad (zeros 8)).length ∧ 8 * 0 + 8 ≤ (pad []).length ∧
      block (pad (zeros 8)) 1 = block (pad []) 0) := by decide

/-- The empty message and one of MAX_MSG_LEN bytes. -/
theorem witness_EncMsgCompletes :
    (Ready 0 (keyed []) ∧ Keyed (keyed []) ∧ 0 ≤ (keyed []).cfg.maxMsgLen) ∧
    (Ready 16 (keyed (zeros 16)) ∧ Keyed (keyed (zeros 16)) ∧
      16 ≤ (keyed (zeros 16)).cfg.maxMsgLen) := by decide

/-- One block, and MAX_MSG_LEN bytes. -/
theorem witness_DecMsgCompletes :
    (Ready 8 (keyed (zeros 8)) ∧ Keyed (keyed (zeros 8)) ∧ 8 ≤ (keyed (zeros 8)).cfg.maxMsgLen ∧
      8 % 8 = 0 ∧ 8 ≤ 8) ∧
    (Ready 16 (keyed (zeros 16)) ∧ Keyed (keyed (zeros 16)) ∧
      16 ≤ (keyed (zeros 16)).cfg.maxMsgLen ∧ 16 % 8 = 0 ∧ 8 ≤ 16) := by decide

theorem witness_DecMsgOfNothing :
    (Ready 0 (keyed []) ∧ Keyed (keyed []) ∧ (keyed []).cfg.emptyDecrypt = .fatal) ∧
    (Ready 0 (lenient []) ∧ Keyed (lenient []) ∧ (lenient []).cfg.emptyDecrypt = .returnEmpty) := by
  decide

theorem witness_DecMsgOfPartialBlockHalts :
    (Ready 1 (keyed (zeros 1)) ∧ Keyed (keyed (zeros 1)) ∧
      1 ≤ (keyed (zeros 1)).cfg.maxMsgLen ∧ 1 % 8 ≠ 0) ∧
    (Ready 15 (keyed (zeros 15)) ∧ Keyed (keyed (zeros 15)) ∧
      15 ≤ (keyed (zeros 15)).cfg.maxMsgLen ∧ 15 % 8 ≠ 0) := by decide

theorem witness_MessageAboveTheLimit :
    Ready 17 (keyed (zeros 17)) ∧ Keyed (keyed (zeros 17)) ∧
    (keyed (zeros 17)).cfg.maxMsgLen < 17 := by decide

/-- The longest message of R201's bound with MAX_MSG_LEN = 16, and the empty one. -/
theorem witness_MessageRoundTrip (operand : List Byte) (h : operand = [] ∨ operand = zeros 8) :
    configValid (plain operand).cfg ∧ Running (plain operand) ∧ Keyed (plain operand) ∧
    (plain operand).opnd.length + 8 ≤ (plain operand).cfg.maxMsgLen := by
  refine ⟨plain_config_valid _, rfl, rfl, ?_⟩
  rcases h with rfl | rfl <;> decide

end Sys2Proof.Tests
end

section
/-! PROOFS, 00_scope.md: the conversion between eight bytes and a 64-bit value (R12). -/

namespace Sys2Proof.Machine

/-- The value of eight bytes in transit is their number in base 256, byte 0 first (R12). -/
theorem toNat_be64_bytes (b0 b1 b2 b3 b4 b5 b6 b7 : Byte) :
    (be64 [b0, b1, b2, b3, b4, b5, b6, b7]).toNat =
      b0.toNat * 2 ^ 56 + b1.toNat * 2 ^ 48 + b2.toNat * 2 ^ 40 + b3.toNat * 2 ^ 32 +
        b4.toNat * 2 ^ 24 + b5.toNat * 2 ^ 16 + b6.toNat * 2 ^ 8 + b7.toNat := by
  simp only [be64, List.foldl_cons, List.foldl_nil, BitVec.toNat_ofNat]
  omega

/-- A concatenation's value: the left part above the width of the right one. -/
theorem toNat_append_eq_add {n m : Nat} (x : BitVec n) (y : BitVec m) :
    (x ++ y).toNat = x.toNat * 2 ^ m + y.toNat := by
  rw [BitVec.toNat_append, ← Nat.shiftLeft_add_eq_or_of_lt y.isLt, Nat.shiftLeft_eq]

theorem be64_eq_append (b0 b1 b2 b3 b4 b5 b6 b7 : Byte) :
    be64 [b0, b1, b2, b3, b4, b5, b6, b7] = b0 ++ b1 ++ b2 ++ b3 ++ b4 ++ b5 ++ b6 ++ b7 := by
  apply BitVec.eq_of_toNat_eq
  rw [toNat_be64_bytes]
  simp only [toNat_append_eq_add]
  omega

@[simp] theorem be64_bytes64 (v : Word64) : be64 (bytes64 v) = v := by
  apply BitVec.eq_of_toNat_eq
  rw [bytes64, toNat_be64_bytes]
  simp only [BitVec.extractLsb'_toNat, Nat.shiftRight_eq_div_pow]
  omega

theorem bytes64_be64 {b : List Byte} (hb : b.length = 8) : bytes64 (be64 b) = b := by
  match b, hb with
  | [b0, b1, b2, b3, b4, b5, b6, b7], _ =>
    simp only [bytes64, List.cons.injEq, and_true]
    refine ⟨?_, ?_, ?_, ?_, ?_, ?_, ?_, ?_⟩ <;>
    · apply BitVec.eq_of_toNat_eq
      simp only [BitVec.extractLsb'_toNat, Nat.shiftRight_eq_div_pow, toNat_be64_bytes]
      omega

/-- Byte `i` of a value on the port is bits 63-8i to 56-8i (R12). -/
theorem getElem?_bytes64 (v : Word64) {i : Nat} (hi : i < 8) :
    (bytes64 v)[i]? = some (v.extractLsb' (56 - 8 * i) 8) := by
  interval_cases i <;> rfl

/-- Settles O7: both directions compare values, a concatenation of bytes being their number in base
256. -/
theorem bytesAndBlockValuesConvertBothWays : Obligations.BytesAndBlockValuesConvertBothWays :=
  ⟨be64_eq_append, be64_bytes64, fun _ => bytes64_be64, fun v _ => getElem?_bytes64 v⟩

end Sys2Proof.Machine
end

section
/-! PROOFS, 00_scope.md: the step that serves a whole request runs the command its bytes decode to
(R14, R75, R84). -/

namespace Sys2Proof.Machine

/-- The LEN of a decoded operation is the one it was given (R73). -/
theorem len_of_decodeOp {op : BitVec 8} {n : Nat} {i : Instr} (h : decodeOp op n = some i) :
    i.len = n := by
  unfold decodeOp at h
  split_ifs at h <;> cases h <;> rfl

/-- The LEN of a decoded command is its header's (R73). -/
theorem len_of_decodeHeader {h : Word64} {i : Instr} (hd : decodeHeader h = .ok i) :
    i.len = headerLen h := by
  unfold decodeHeader at hd
  split at hd
  · cases hd
  · split at hd
    · next hop => cases hd; exact len_of_decodeOp hop
    · cases hd

/-- Bytes that decode to a command are a whole header that spells it, and the operand. -/
theorem decode_ok {bytes : List Byte} {i : Instr} {operand : List Byte}
    (hd : decode bytes = .ok (i, operand)) :
    ∃ h, splitRequest bytes = some (h, operand) ∧ decodeHeader h = .ok i := by
  unfold decode at hd
  split at hd
  · cases hd
  · next h rest hs =>
    split at hd
    · next hh => cases hd; exact ⟨h, hs, hh⟩
    · cases hd

/-- A running engine takes a whole request from its port (R75). -/
theorem fetch_of_whole_request {s : State} {bytes : List Byte} {rest : List HostInput} {h : Word64}
    {operand : List Byte} (hr : Running s) (hin : s.inbox = .request bytes :: rest)
    (hs : splitRequest bytes = some (h, operand)) (hl : operand.length = headerLen h) :
    fetch s = .request h ((s.setInbox rest).setOpnd operand) := by
  simp [fetch, hin, hr, hs, hl]

/-- A step that finds a request with a legal header runs its command. -/
theorem step_of_fetch_request {s s' : State} {h : Word64} {i : Instr} (hf : fetch s = .request h s')
    (hd : decodeHeader h = .ok i) : step s = exec i s' := by
  simp only [step, hf, hd]

/-- Settles O8: the decoder and the port read the same header from the request's bytes. -/
theorem stepRunsTheDecodedCommand : Obligations.StepRunsTheDecodedCommand := by
  intro s bytes rest i operand hr hin hdec ⟨_, hlen⟩
  obtain ⟨h, hs, hd⟩ := decode_ok hdec
  have hl : operand.length = headerLen h := hlen.trans (len_of_decodeHeader hd)
  exact step_of_fetch_request (fetch_of_whole_request hr hin hs hl) hd

end Sys2Proof.Machine
end

section
/-! PROOFS, 00_scope.md: what a command can do, said once for all five, with the length of its
result; then that no step writes the configuration (R6, R34). -/

namespace Sys2Proof.Machine

/-- Padding adds 1 to 8 bytes (R190). -/
theorem padLength_bounds (n : Nat) : 1 ≤ padLength n ∧ padLength n ≤ 8 := by
  unfold padLength
  omega

/-- Padding fills the last block (R190). -/
theorem eight_mul_padded_blocks (n : Nat) : 8 * ((n + padLength n) / 8) = n + padLength n := by
  unfold padLength
  omega

/-- ENC_MSG's writes to RES stay inside it: they keep its length (R52). -/
theorem length_foldl_block_writes (f : Nat → List Byte) (hf : ∀ j, (f j).length = 8) (k : Nat)
    (js : List Nat) (hjs : ∀ j ∈ js, j < k) (res : List Byte) (hres : res.length = 8 * k) :
    (js.foldl (fun res j => memWrite res (8 * j) (f j)) res).length = 8 * k := by
  induction js generalizing res with
  | nil => exact hres
  | cons j js ih =>
    have hj : j < k := hjs j (by simp)
    have hwrite : (memWrite res (8 * j) (f j)).length = res.length :=
      length_memWrite (by rw [hf, hres]; omega)
    exact ih (fun i hi => hjs i (by simp [hi])) _ (hwrite.trans hres)

@[simp] theorem length_encryptBlocks (T : Tables) (ks : SubkeyFile) (pm : List Byte) (k : Nat) :
    (encryptBlocks T ks pm k).length = 8 * k :=
  length_foldl_block_writes (fun j => blockCore T ks .enc (block pm j)) (fun _ => rfl) k _
    (fun _ => List.mem_range.mp) _ (length_newRes _)

/-- Removing padding adds no byte (R192). -/
theorem length_unpad_le (q : List Byte) : (unpad q).length ≤ q.length := by
  unfold unpad
  split
  · exact le_rfl
  · split
    · exact le_rfl
    · simp

/-- A decrypted message is no longer than its ciphertext (R199). -/
theorem length_decryptMessage_le (T : Tables) (ks : SubkeyFile) (c : List Byte) :
    (decryptMessage T ks c).length ≤ c.length :=
  calc (decryptMessage T ks c).length
      = (unpad (ecb T ks .dec c)).length := by rw [decryptMessage_eq]
    _ ≤ (ecb T ks .dec c).length := length_unpad_le _
    _ = 8 * (c.length / 8) := length_ecbBlocks T ks .dec _ c
    _ ≤ c.length := Nat.mul_div_le _ _

/-- A started command ends in one of four ways: a recoverable error, a fatal one, a key loaded, or an
OK response whose result is at most one block of padding longer than MAX_MSG_LEN. -/
inductive CommandEnd (i : Instr) (s : State) : State → Prop where
  | recoverable (code : Status) : isFatal code = false → code ≠ .ok →
      CommandEnd i s (raiseRecoverable code s)
  | fatal (code : Status) : isFatal code = true → s.keyValid = true →
      CommandEnd i s (raiseFatal code s)
  | keyLoaded : i = .keyLoad 8 →
      CommandEnd i s (respond .ok [] (s.setKs (keySchedule s.cfg.tables s.opnd)).setKeyValid)
  | result (res : List Byte) : s.keyValid = true → res.length ≤ s.cfg.maxMsgLen + 8 →
      CommandEnd i s (respond .ok res s)

theorem execKeyLoad_end {n : Nat} {s t : State} (h : execKeyLoad n s = .next t) :
    CommandEnd (.keyLoad n) s t := by
  obtain ⟨-, -, ⟨-, rfl⟩ | ⟨rfl, rfl⟩⟩ := execKeyLoad_cases h
  · exact .recoverable _ rfl (by decide)
  · exact .keyLoaded rfl

theorem blockCommand_end {i : Instr} {dir : Direction} {n : Nat} {s t : State}
    (h : blockCommand dir n s = .next t) : CommandEnd i s t := by
  obtain ⟨-, -, ⟨-, rfl⟩ | ⟨hk, -, rfl⟩ | ⟨hk, -, rfl⟩⟩ := blockCommand_cases h
  · exact .recoverable _ rfl (by decide)
  · exact .fatal _ rfl hk
  · exact .result _ hk (by simp)

theorem execEncMsg_end {i : Instr} {n : Nat} {s t : State} (h : execEncMsg n s = .next t) :
    CommandEnd i s t := by
  obtain ⟨-, -, ⟨-, rfl⟩ | ⟨-, -, rfl⟩ | ⟨hk, hn, rfl⟩⟩ := execEncMsg_cases h
  · exact .recoverable _ rfl (by decide)
  · exact .recoverable _ rfl (by decide)
  · refine .result _ hk ?_
    have hpad := padLength_bounds n
    rw [length_encryptBlocks, eight_mul_padded_blocks]
    omega

theorem execDecMsg_end {i : Instr} {n : Nat} {s t : State} (h : execDecMsg n s = .next t) :
    CommandEnd i s t := by
  obtain ⟨-, hl, ⟨-, rfl⟩ | ⟨-, -, rfl⟩ | ⟨hk, -, -, rfl⟩ | ⟨hk, -, -, rfl⟩ | ⟨hk, -, -, rfl⟩ |
    ⟨hk, hn, -, -, rfl⟩⟩ := execDecMsg_cases h
  · exact .recoverable _ rfl (by decide)
  · exact .recoverable _ rfl (by decide)
  · exact .fatal _ rfl hk
  · exact .fatal _ rfl hk
  · exact .result _ hk (by simp)
  · refine .result _ hk ?_
    have hres := length_decryptMessage_le s.cfg.tables s.ks s.opnd
    omega

/-- Every command first tests HALTED and the length of OPND (R75, R225). -/
theorem exec_eq_whenStarted (i : Instr) (s : State) :
    ∃ command, exec i s = whenStarted i.len s command := by
  cases i <;> exact ⟨_, rfl⟩

/-- A command that answers a next state was started on its whole operand and came to one of its
ends. -/
theorem exec_cases {i : Instr} {s t : State} (h : exec i s = .next t) :
    s.halted = false ∧ s.opnd.length = i.len ∧ CommandEnd i s t := by
  obtain ⟨command, hw⟩ := exec_eq_whenStarted i s
  obtain ⟨hr, hl, -⟩ := whenStarted_next (hw.symm.trans h)
  refine ⟨hr, hl, ?_⟩
  cases i with
  | keyLoad n => exact execKeyLoad_end h
  | encBlock n => exact blockCommand_end h
  | decBlock n => exact blockCommand_end h
  | encMsg n => exact execEncMsg_end h
  | decMsg n => exact execDecMsg_end h

/-- No end of a command writes the configuration. -/
theorem CommandEnd.cfg_eq {i : Instr} {s t : State} (h : CommandEnd i s t) : t.cfg = s.cfg := by
  cases h <;> rfl

/-- Taking a request from the port leaves the configuration. -/
theorem cfg_of_fetch_request {s s' : State} {h : Word64} (hf : fetch s = .request h s') :
    s'.cfg = s.cfg := by
  obtain ⟨-, _, _, _, -, -, -, rfl⟩ := fetch_request hf
  rfl

/-- Settles O25, by the kinds of step: none of them writes the field. -/
theorem configurationIsNeverWritten : Obligations.ConfigurationIsNeverWritten := by
  intro s t h
  obtain ⟨-, rfl⟩ | ⟨rest, -, rfl⟩ | ⟨_, s', _, hf, -, rfl⟩ | ⟨_, s', i, hf, -, hx⟩ := step_cases h
  · rfl
  · rfl
  · exact (raiseRecoverable_cfg s' _).trans (cfg_of_fetch_request hf)
  · obtain ⟨-, -, hend⟩ := exec_cases hx
    exact hend.cfg_eq.trans (cfg_of_fetch_request hf)

end Sys2Proof.Machine
end

section
/-! PROOFS, 00_scope.md: every step keeps the machine's invariant. While a request is served OPND holds
its operand, so what holds then is the invariant of the state with OPND emptied; the response restores
it for the state itself (R66). -/

namespace Sys2Proof.Machine

theorem responseOf_wellFormed {st : Status} {res : List Byte} (hl : res.length < 2 ^ 32)
    (hst : st ≠ .ok → res = []) : ResponseWellFormed (responseOf st res) :=
  ⟨st, rfl, hl, hst⟩

/-- A reset leaves no key and no operand, and keeps what was delivered (R250). -/
theorem machineInvariant_applyReset {s : State} (hs : MachineInvariant s) (rest : List HostInput) :
    MachineInvariant (applyReset rest s) where
  config_valid := hs.config_valid
  operand_empty := rfl
  subkeys_from_key := by simp [SubkeysFromKey]
  responses_well_formed := hs.responses_well_formed

/-- Taking a request from the port breaks no more than the emptiness of OPND. -/
theorem machineInvariant_of_fetch_request {s s' : State} {h : Word64} (hs : MachineInvariant s)
    (hf : fetch s = .request h s') : MachineInvariant (s'.setOpnd []) := by
  obtain ⟨-, _, _, _, -, -, -, rfl⟩ := fetch_request hf
  exact ⟨hs.config_valid, rfl, hs.subkeys_from_key, hs.responses_well_formed⟩

section
variable {s : State} (hs : MachineInvariant (s.setOpnd []))
include hs

/-- A well-formed response ends the command with the invariant (R66, R76). -/
theorem machineInvariant_respond {st : Status} {res : List Byte} (hl : res.length < 2 ^ 32)
    (hst : st ≠ .ok → res = []) : MachineInvariant (respond st res s) where
  config_valid := hs.config_valid
  operand_empty := rfl
  subkeys_from_key := hs.subkeys_from_key
  responses_well_formed := by
    intro r hr
    rw [respond_outbox, List.mem_append, List.mem_singleton] at hr
    obtain hr | rfl := hr
    · exact hs.responses_well_formed r hr
    · exact responseOf_wellFormed hl hst

theorem machineInvariant_raiseRecoverable (code : Status) :
    MachineInvariant (raiseRecoverable code s) :=
  machineInvariant_respond hs (by simp) fun _ => rfl

/-- A fatal violation differs from a recoverable one in HALTED only, of which the invariant says
nothing (R222). -/
theorem machineInvariant_raiseFatal (code : Status) : MachineInvariant (raiseFatal code s) :=
  have ⟨hc, ho, hk, hr⟩ := machineInvariant_raiseRecoverable hs code
  ⟨hc, ho, hk, hr⟩

/-- Loading an 8-byte key makes KS that key's schedule (R22, R136). -/
theorem machineInvariant_loadKey {key : List Byte} (hkey : key.length = 8) :
    MachineInvariant ((s.setKs (keySchedule s.cfg.tables key)).setKeyValid.setOpnd []) where
  config_valid := hs.config_valid
  operand_empty := rfl
  subkeys_from_key := fun _ => ⟨key, hkey, rfl⟩
  responses_well_formed := hs.responses_well_formed

/-- Every command that answers restores the invariant. MAX_MSG_LEN leaves room for a block of padding
below 2^32, so LEN of the response holds the length of any result (R5). -/
theorem machineInvariant_of_exec {i : Instr} {t : State} (h : exec i s = .next t) :
    MachineInvariant t := by
  obtain ⟨-, hl, hend⟩ := exec_cases h
  cases hend with
  | recoverable code => exact machineInvariant_raiseRecoverable hs code
  | fatal code => exact machineInvariant_raiseFatal hs code
  | keyLoaded hi =>
    subst hi
    exact machineInvariant_respond (machineInvariant_loadKey hs hl) (by simp) fun _ => rfl
  | result res _ hres =>
    obtain ⟨-, -, hmax⟩ : configValid s.cfg := hs.config_valid
    exact machineInvariant_respond hs (by omega) fun hne => absurd rfl hne

end

/-- Settles O23, by the kinds of step: a request is taken with its operand in OPND, and its response
restores the invariant. -/
theorem stepKeepsMachineInvariant : Obligations.StepKeepsMachineInvariant := by
  intro s t hs h
  obtain ⟨-, rfl⟩ | ⟨rest, -, rfl⟩ | ⟨_, s', _, hf, -, rfl⟩ | ⟨_, s', i, hf, -, hx⟩ := step_cases h
  · exact hs
  · exact machineInvariant_applyReset hs rest
  · exact machineInvariant_raiseRecoverable (machineInvariant_of_fetch_request hs hf) _
  · exact machineInvariant_of_exec (machineInvariant_of_fetch_request hs hf) hx

end Sys2Proof.Machine
end

section
/-! PROOFS, 10_state.md: the state after reset, and the reset signal (R36, R250). -/

namespace Sys2Proof.Machine

theorem blockTablesValid_fips46 : blockTablesValid fips46 := by decide +kernel
theorem roundTablesValid_fips46 : roundTablesValid fips46 := by decide +kernel
theorem keyTablesValid_fips46 : keyTablesValid fips46 := by decide +kernel
theorem sboxTablesValid_fips46 : sboxTablesValid fips46 := by decide +kernel

theorem tablesValid_fips46 : tablesValid fips46 :=
  ⟨blockTablesValid_fips46, roundTablesValid_fips46, keyTablesValid_fips46, sboxTablesValid_fips46⟩

/-- The type of MAX_MSG_LEN's excess over 16 carries its bounds (R5; log 2). -/
theorem initialConfig_maxMsgLen_bounds :
    16 ≤ initialConfig.maxMsgLen ∧ initialConfig.maxMsgLen ≤ 2 ^ 32 - 9 := by
  have hlt := Config.maxMsgLenAbove16.isLt
  simp only [initialConfig]
  omega

theorem configValid_initialConfig : configValid initialConfig :=
  ⟨tablesValid_fips46, initialConfig_maxMsgLen_bounds⟩

/-- Settles O16: the fields are read off, and the printed tables make it legal. -/
theorem resetStateAsSpecified : Obligations.ResetStateAsSpecified :=
  ⟨rfl, rfl, rfl, rfl, rfl, rfl, rfl, configValid_initialConfig⟩

/-- Settles O24: at reset there is no key, no operand and no response to be well formed. -/
theorem resetMeetsMachineInvariant : Obligations.ResetMeetsMachineInvariant where
  config_valid := configValid_initialConfig
  operand_empty := rfl
  subkeys_from_key := fun hkeyed => absurd hkeyed Bool.false_ne_true
  responses_well_formed := fun _ hr => absurd hr List.not_mem_nil

/-- A reset is taken from exactly the two places `fetch_reset` names (log 8). -/
theorem fetch_eq_reset_iff {s : State} {rest : List HostInput} :
    fetch s = .reset rest ↔ s.inbox = .reset :: rest ∨
      (s.halted = true ∧ ∃ bytes, s.inbox = .request bytes :: .reset :: rest) := by
  refine ⟨fetch_reset, ?_⟩
  rintro (hin | ⟨hh, bytes, hin⟩)
  · simp only [fetch, hin]
  · simp only [fetch, hin, hh, if_true]

theorem step_of_fetch_reset {s : State} {rest : List HostInput} (hf : fetch s = .reset rest) :
    step s = .next (applyReset rest s) := by
  simp only [step, hf]

/-- Settles O17: either form of the port is one reset, which the step applies. -/
theorem resetSignalClearsBothFlags : Obligations.ResetSignalClearsBothFlags := by
  intro s rest hport
  exact ⟨applyReset rest s, step_of_fetch_reset (fetch_eq_reset_iff.mpr hport),
    rfl, rfl, rfl, rfl, rfl, rfl⟩

end Sys2Proof.Machine
end

section
/-! PROOFS, 10_state.md: what writes KS and KEY_VALID (R22, R24, R136, R250). -/

namespace Sys2Proof.Machine

/-- A command leaves KS and KEY_VALID, or it is a KEY_LOAD of 8 bytes and writes both (R24, R136). -/
theorem CommandEnd.keeps_or_loads_key {i : Instr} {s t : State} (h : CommandEnd i s t) :
    (t.ks = s.ks ∧ t.keyValid = s.keyValid) ∨
    (i = .keyLoad 8 ∧ t.ks = keySchedule s.cfg.tables s.opnd ∧ t.keyValid = true) := by
  cases h with
  | recoverable code => exact .inl ⟨rfl, rfl⟩
  | fatal code => exact .inl ⟨rfl, rfl⟩
  | keyLoaded hi => exact .inr ⟨hi, rfl, rfl⟩
  | result res => exact .inl ⟨rfl, rfl⟩

/-- No command takes anything more from the port. -/
theorem CommandEnd.inbox_eq {i : Instr} {s t : State} (h : CommandEnd i s t) :
    t.inbox = s.inbox := by
  cases h <;> rfl

/-- A header that spells a command, and the bytes after it, are what the request decodes to. -/
theorem decode_of_splitRequest {bytes operand : List Byte} {h : Word64} {i : Instr}
    (hs : splitRequest bytes = some (h, operand)) (hd : decodeHeader h = .ok i) :
    decode bytes = .ok (i, operand) := by
  simp only [decode, hs, hd]

/-- Settles O26, by the kinds of step: only the command of a KEY_LOAD and the reset write either. -/
theorem onlyKeyLoadWritesSubkeys : Obligations.OnlyKeyLoadWritesSubkeys := by
  intro s t h
  obtain ⟨-, rfl⟩ | ⟨rest, hf, rfl⟩ | ⟨_, s', _, hf, -, rfl⟩ | ⟨hd, s', i, hf, hi, hx⟩ := step_cases h
  · exact .inl ⟨rfl, rfl⟩
  · exact .inr (.inr (fetch_reset hf))
  · obtain ⟨-, _, _, _, -, -, -, rfl⟩ := fetch_request hf
    exact .inl ⟨rfl, rfl⟩
  · obtain ⟨-, bytes, rest, operand, hin, hs, -, rfl⟩ := fetch_request hf
    obtain ⟨-, hlen, hend⟩ := exec_cases hx
    obtain hkept | ⟨rfl, hks, hkv⟩ := hend.keeps_or_loads_key
    · exact .inl hkept
    · have hport : s.inbox = .request bytes :: t.inbox := hend.inbox_eq ▸ hin
      exact .inr (.inl ⟨bytes, operand, hport, decode_of_splitRequest hs hi, hlen, hks, hkv⟩)

end Sys2Proof.Machine
end

section
/-! PROOFS, 10_state.md: while KEY_VALID = 0 nothing but KS depends on KS (R22, R36). The port does not
look at KS at all; of the commands, those that read it stop before they do, and a KEY_LOAD of 8 bytes
overwrites it. -/

namespace Sys2Proof.Machine

/-- What stands at the port, with an update of the state applied where it holds a state. -/
def Fetched.mapState (f : State → State) : Fetched → Fetched
  | .idle => .idle
  | .reset rest => .reset rest
  | .stuck => .stuck
  | .malformed why => .malformed why
  | .request h s => .request h (f s)

/-- Taking from the port looks at the inbox and HALTED only: an update that leaves both, and commutes
with taking the request, changes nothing of what is found. -/
theorem fetch_update {f : State → State} {s : State} (hin : (f s).inbox = s.inbox)
    (hh : (f s).halted = s.halted)
    (htake : ∀ rest operand,
      ((f s).setInbox rest).setOpnd operand = f ((s.setInbox rest).setOpnd operand)) :
    fetch (f s) = (fetch s).mapState f := by
  unfold fetch
  rw [hin, hh]
  split
  · split <;> rfl
  · rfl
  · split
    · split <;> rfl
    · split
      · rfl
      · split
        · rfl
        · split
          · rfl
          · exact congrArg _ (htake _ _)

theorem fetch_setKs (s : State) (k : SubkeyFile) :
    fetch (s.setKs k) = (fetch s).mapState (·.setKs k) :=
  fetch_update (f := (·.setKs k)) rfl rfl fun _ _ => rfl

/-- Taking a request from the port leaves KEY_VALID. -/
theorem keyValid_of_fetch_request {s s' : State} {h : Word64} (hf : fetch s = .request h s') :
    s'.keyValid = s.keyValid := by
  obtain ⟨-, _, _, _, -, -, -, rfl⟩ := fetch_request hf
  rfl

theorem step_of_fetch_idle {s : State} (hf : fetch s = .idle) : step s = .next s := by
  simp only [step, hf]

theorem step_of_illegal_request {s s' : State} {h : Word64} {e : DecodeError}
    (hf : fetch s = .request h s') (hd : decodeHeader h = .error e) :
    step s = .next (raiseRecoverable .errIllegalCommand s') := by
  simp only [step, hf, hd]

section
variable {s : State} {n : Nat} (hr : s.halted = false) (hl : s.opnd.length = n)
include hr hl

/-- KEY_LOAD of 8 bytes (R136). -/
theorem execKeyLoad_of_eq_eight (hn : n = 8) : execKeyLoad n s =
    .next (respond .ok [] (s.setKs (keySchedule s.cfg.tables s.opnd)).setKeyValid) := by
  subst hn
  rw [execKeyLoad, whenStarted_ready hr hl, if_neg (by decide), memRead_all hl]

/-- KEY_LOAD of any other length (R135). -/
theorem execKeyLoad_of_ne_eight (hn : n ≠ 8) :
    execKeyLoad n s = .next (raiseRecoverable .errKeyLength s) := by
  rw [execKeyLoad, whenStarted_ready hr hl, if_pos hn]

end

/-- Without a key a crypto command stops at its first test (R224). -/
theorem exec_crypto_of_unkeyed {i : Instr} {s : State} (hr : s.halted = false)
    (hl : s.opnd.length = i.len) (hk : s.keyValid = false) (hi : ∀ n, i ≠ .keyLoad n) :
    exec i s = .next (raiseRecoverable .errNoKey s) := by
  cases i with
  | keyLoad n => exact absurd rfl (hi n)
  | encBlock n => exact (whenStarted_ready hr hl).trans (if_pos hk)
  | decBlock n => exact (whenStarted_ready hr hl).trans (if_pos hk)
  | encMsg n => exact (whenStarted_ready hr hl).trans (if_pos hk)
  | decMsg n => exact (whenStarted_ready hr hl).trans (if_pos hk)

/-- Without a key every command but a KEY_LOAD of 8 bytes raises a recoverable error, the same one
whatever KS holds. -/
theorem exec_setKs_error_of_unkeyed {i : Instr} {s : State} (hr : s.halted = false)
    (hl : s.opnd.length = i.len) (hk : s.keyValid = false) (hi : i ≠ .keyLoad 8) :
    ∃ code, ∀ k, exec i (s.setKs k) = .next (raiseRecoverable code (s.setKs k)) := by
  cases i with
  | keyLoad n =>
    have hn : n ≠ 8 := fun h8 => hi (congrArg Instr.keyLoad h8)
    exact ⟨.errKeyLength, fun k => execKeyLoad_of_ne_eight (s := s.setKs k) hr hl hn⟩
  | _ => exact ⟨.errNoKey, fun k => exec_crypto_of_unkeyed (s := s.setKs k) hr hl hk nofun⟩

/-- The two runs of a command without a key: they differ in KS only, and not even there once a key is
loaded. -/
theorem exec_setKs_of_unkeyed {i : Instr} {s t : State} (k : SubkeyFile) (hk : s.keyValid = false)
    (hx : exec i s = .next t) :
    ∃ k', exec i (s.setKs k) = .next (t.setKs k') ∧ (t.keyValid = true → k' = t.ks) := by
  obtain ⟨hr, hl, -⟩ := exec_cases hx
  by_cases hi : i = .keyLoad 8
  · subst hi
    have ht := hx.symm.trans (execKeyLoad_of_eq_eight hr hl rfl)
    cases ht
    exact ⟨_, execKeyLoad_of_eq_eight (s := s.setKs k) hr hl rfl, fun _ => rfl⟩
  · obtain ⟨code, hcode⟩ := exec_setKs_error_of_unkeyed hr hl hk hi
    have ht := hx.symm.trans (hcode s.ks)
    cases ht
    exact ⟨k, hcode k, by simp [hk]⟩

/-- Settles O28, by the kinds of step: the port finds the same with either KS, and a command without a
key does the same with either. -/
theorem subkeysUnseenWithoutKey : Obligations.SubkeysUnseenWithoutKey := by
  intro s t other hk h
  have hport := fetch_setKs s other
  obtain ⟨hf, rfl⟩ | ⟨rest, hf, rfl⟩ | ⟨_, s', _, hf, hd, rfl⟩ | ⟨_, s', i, hf, hd, hx⟩ :=
    step_cases h <;> rw [hf] at hport
  · exact ⟨other, step_of_fetch_idle hport, by simp [hk]⟩
  · exact ⟨_, step_of_fetch_reset hport, fun _ => rfl⟩
  · have hk' := (keyValid_of_fetch_request hf).trans hk
    exact ⟨other, step_of_illegal_request hport hd, by simp [hk']⟩
  · have hk' := (keyValid_of_fetch_request hf).trans hk
    obtain ⟨k', hx', hsame⟩ := exec_setKs_of_unkeyed other hk' hx
    exact ⟨k', (step_of_fetch_request hport hd).trans hx', hsame⟩

end Sys2Proof.Machine
end

section
/-! PROOFS, 20_memory.md: what is delivered already does not matter (R66, R83). Putting responses before
those delivered and then taking a step, or running a command, is the same as doing it the other way
round; so a state's own responses can be exchanged for any others. -/

namespace Sys2Proof.Machine

/-- The state as it is when the responses `d` were delivered before its own. -/
def State.afterDelivered (s : State) (d : List Response) : State := { s with outbox := d ++ s.outbox }

section
variable (s : State) (d : List Response)

@[simp] theorem State.afterDelivered_keyValid : (s.afterDelivered d).keyValid = s.keyValid := rfl
@[simp] theorem State.afterDelivered_ks : (s.afterDelivered d).ks = s.ks := rfl
@[simp] theorem State.afterDelivered_halted : (s.afterDelivered d).halted = s.halted := rfl
@[simp] theorem State.afterDelivered_opnd : (s.afterDelivered d).opnd = s.opnd := rfl
@[simp] theorem State.afterDelivered_cfg : (s.afterDelivered d).cfg = s.cfg := rfl

@[simp] theorem State.setKs_afterDelivered (k : SubkeyFile) :
    (s.afterDelivered d).setKs k = (s.setKs k).afterDelivered d := rfl
@[simp] theorem State.setKeyValid_afterDelivered :
    (s.afterDelivered d).setKeyValid = s.setKeyValid.afterDelivered d := rfl

@[simp] theorem memRead_afterDelivered (off n : Nat) :
    memRead (s.afterDelivered d) off n = memRead s off n := rfl

@[simp] theorem respond_afterDelivered (st : Status) (res : List Byte) :
    respond st res (s.afterDelivered d) = (respond st res s).afterDelivered d :=
  congrArg (fun o => { s with opnd := [], outbox := o }) (List.append_assoc d s.outbox _)

@[simp] theorem raiseRecoverable_afterDelivered (code : Status) :
    raiseRecoverable code (s.afterDelivered d) = (raiseRecoverable code s).afterDelivered d :=
  respond_afterDelivered s d code []

@[simp] theorem raiseFatal_afterDelivered (code : Status) :
    raiseFatal code (s.afterDelivered d) = (raiseFatal code s).afterDelivered d :=
  congrArg State.setHalted (respond_afterDelivered s d code [])

end

/-- An outcome with an update of the state applied where it answers one. -/
def mapNext (f : State → State) :
    Host.Outcome State Fault Refusal → Host.Outcome State Fault Refusal
  | .next s => .next (f s)
  | .fault r => .fault r
  | .refused r => .refused r

/-- An updated outcome answers a state only where the outcome itself does. -/
theorem mapNext_eq_next {f : State → State} {o : Host.Outcome State Fault Refusal} {t : State}
    (h : mapNext f o = .next t) : ∃ t₀, o = .next t₀ ∧ t = f t₀ := by
  cases o with
  | next t₀ => cases h; exact ⟨t₀, rfl, rfl⟩
  | fault r => cases h
  | refused r => cases h

/-- Responses put before those delivered stay before what `run` delivers, and change nothing else of
it. -/
def IgnoresDelivered (run : State → Host.Outcome State Fault Refusal) : Prop :=
  ∀ s d, run (s.afterDelivered d) = mapNext (·.afterDelivered d) (run s)

/-- What ignores the responses delivered only adds to them, and adds the same to any others. -/
theorem IgnoresDelivered.exchange {run : State → Host.Outcome State Fault Refusal}
    (hrun : IgnoresDelivered run) {s t : State} (h : run s = .next t) :
    ∃ more, t.outbox = s.outbox ++ more ∧
      ∀ other, run { s with outbox := other } = .next { t with outbox := other ++ more } := by
  have hfrom (d : List Response) : run { s with outbox := d } =
      mapNext (·.afterDelivered d) (run { s with outbox := [] }) := by
    rw [← hrun, State.afterDelivered, List.append_nil]
  obtain ⟨t₀, h₀, rfl⟩ := mapNext_eq_next ((hfrom s.outbox).symm.trans h)
  exact ⟨t₀.outbox, rfl, fun other => by rw [hfrom, h₀, mapNext]; rfl⟩

/-- A command that looks at the responses delivered neither to start nor once started ignores them. -/
theorem ignoresDelivered_whenStarted {n : Nat} {command : State → Host.Outcome State Fault Refusal}
    (hc : IgnoresDelivered command) : IgnoresDelivered fun s => whenStarted n s (command s) := by
  intro s d
  simp only [whenStarted, State.afterDelivered_halted, State.afterDelivered_opnd, hc s d]
  split_ifs <;> rfl

theorem ignoresDelivered_execKeyLoad (n : Nat) : IgnoresDelivered (execKeyLoad n) :=
  ignoresDelivered_whenStarted fun s d => by
    simp only [State.afterDelivered_cfg, memRead_afterDelivered, State.setKs_afterDelivered,
      State.setKeyValid_afterDelivered, respond_afterDelivered, raiseRecoverable_afterDelivered]
    split_ifs <;> rfl

theorem ignoresDelivered_blockCommand (dir : Direction) (n : Nat) :
    IgnoresDelivered (blockCommand dir n) :=
  ignoresDelivered_whenStarted fun s d => by
    simp only [State.afterDelivered_keyValid, State.afterDelivered_ks, State.afterDelivered_cfg,
      memRead_afterDelivered, respond_afterDelivered, raiseRecoverable_afterDelivered,
      raiseFatal_afterDelivered]
    split_ifs <;> rfl

theorem ignoresDelivered_execEncMsg (n : Nat) : IgnoresDelivered (execEncMsg n) :=
  ignoresDelivered_whenStarted fun s d => by
    simp only [State.afterDelivered_keyValid, State.afterDelivered_ks, State.afterDelivered_cfg,
      memRead_afterDelivered, respond_afterDelivered, raiseRecoverable_afterDelivered]
    split_ifs <;> rfl

theorem ignoresDelivered_execDecMsg (n : Nat) : IgnoresDelivered (execDecMsg n) :=
  ignoresDelivered_whenStarted fun s d => by
    simp only [State.afterDelivered_keyValid, State.afterDelivered_ks, State.afterDelivered_cfg,
      memRead_afterDelivered, respond_afterDelivered, raiseRecoverable_afterDelivered,
      raiseFatal_afterDelivered]
    split_ifs
    · rfl
    · rfl
    · rfl
    · cases s.cfg.emptyDecrypt <;> rfl
    · rfl

theorem ignoresDelivered_exec (i : Instr) : IgnoresDelivered (exec i) := by
  cases i with
  | keyLoad n => exact ignoresDelivered_execKeyLoad n
  | encBlock n => exact ignoresDelivered_blockCommand .enc n
  | decBlock n => exact ignoresDelivered_blockCommand .dec n
  | encMsg n => exact ignoresDelivered_execEncMsg n
  | decMsg n => exact ignoresDelivered_execDecMsg n

theorem fetch_afterDelivered (s : State) (d : List Response) :
    fetch (s.afterDelivered d) = (fetch s).mapState (·.afterDelivered d) :=
  fetch_update (f := (·.afterDelivered d)) rfl rfl fun _ _ => rfl

/-- The port does not show the responses delivered, and no command reads them. -/
theorem ignoresDelivered_step : IgnoresDelivered step := by
  intro s d
  unfold step
  rw [fetch_afterDelivered]
  cases fetch s with
  | idle => rfl
  | reset rest => rfl
  | stuck => rfl
  | malformed why => rfl
  | request h s' =>
    cases hd : decodeHeader h with
    | ok i => simpa only [Fetched.mapState, hd] using ignoresDelivered_exec i s' d
    | error e => simp only [Fetched.mapState, hd, raiseRecoverable_afterDelivered]; rfl

/-- Settles O27: a step commutes with putting responses before those delivered. -/
theorem deliveredResponsesAreNeverRead : Obligations.DeliveredResponsesAreNeverRead := by
  intro s t other h
  obtain ⟨more, hout, hother⟩ := ignoresDelivered_step.exchange h
  exact ⟨more, hout, hother other⟩

end Sys2Proof.Machine
end

section
/-! PROOFS, 20_memory.md: the response a command delivers, and what a crypto command leaves unchanged
(R60, R222, R234). -/

namespace Sys2Proof.Machine

/-- The STATUS of a response is the code of the status it was made with (R72). -/
theorem status_responseOf (st : Status) (res : List Byte) :
    (responseOf st res).header.toNat % 2 ^ 8 = (statusCode st).toNat := by
  have hcode := (statusCode st).isLt
  rw [responseOf, responseHeader, toNat_append_eq_add]
  omega

/-- A status is fatal when its code is at least 0x80, that is bit 7 is set (R77). -/
theorem isFatal_iff (st : Status) : isFatal st = true ↔ 0x80 ≤ (statusCode st).toNat := by
  cases st <;> decide

/-- From `s` to `t` one response is delivered, and HALTED is set exactly when it is a fatal one. -/
def DeliversOne (s t : State) : Prop :=
  ∃ r : Response, t.outbox = s.outbox ++ [r] ∧ (t.halted = true ↔ 0x80 ≤ r.header.toNat % 2 ^ 8)

/-- A response delivered with a status that is fatal exactly when HALTED is set. -/
theorem deliversOne_of_status {s t : State} {st : Status} {res : List Byte}
    (hout : t.outbox = s.outbox ++ [responseOf st res]) (hh : t.halted = isFatal st) :
    DeliversOne s t :=
  ⟨_, hout, by rw [hh, isFatal_iff, status_responseOf]⟩

theorem deliversOne_raiseRecoverable {s : State} {code : Status} (hr : s.halted = false)
    (hcode : isFatal code = false) : DeliversOne s (raiseRecoverable code s) :=
  deliversOne_of_status rfl (hr.trans hcode.symm)

/-- However a command ends, it delivers one response that tells whether it halted the engine. -/
theorem CommandEnd.deliversOne {i : Instr} {s t : State} (h : CommandEnd i s t)
    (hr : s.halted = false) : DeliversOne s t := by
  cases h with
  | recoverable code hcode => exact deliversOne_raiseRecoverable hr hcode
  | fatal code hcode => exact deliversOne_of_status rfl hcode.symm
  | keyLoaded => exact deliversOne_of_status (st := .ok) rfl hr
  | result res => exact deliversOne_of_status (st := .ok) rfl hr

/-- Every command gives up OPND with its response (R66). -/
theorem CommandEnd.opnd_eq {i : Instr} {s t : State} (h : CommandEnd i s t) : t.opnd = [] := by
  cases h <;> rfl

/-- A command other than KEY_LOAD writes neither KS nor KEY_VALID (R60). -/
theorem CommandEnd.keeps_key {i : Instr} {s t : State} (h : CommandEnd i s t)
    (hi : ∀ n, i ≠ .keyLoad n) : t.ks = s.ks ∧ t.keyValid = s.keyValid := by
  obtain hkept | ⟨hload, -⟩ := h.keeps_or_loads_key
  · exact hkept
  · exact absurd hload (hi 8)

/-- Settles O30: the frame of each end of a command. -/
theorem cryptoCommandFrame : Obligations.CryptoCommandFrame := by
  intro s t i hi hx
  obtain ⟨hr, -, hend⟩ := exec_cases hx
  obtain ⟨hks, hkv⟩ := hend.keeps_key hi
  exact ⟨hkv, hks, hend.cfg_eq, hend.inbox_eq, hend.opnd_eq, hend.deliversOne hr⟩

/-- A crypto command that does not halt the engine leaves the state it found, but for OPND and the
response it delivers. -/
theorem eq_of_exec_crypto {i : Instr} {s t : State} (hi : ∀ n, i ≠ .keyLoad n)
    (hx : exec i s = .next t) (ht : t.halted = false) :
    t = { s with opnd := [], outbox := t.outbox } := by
  obtain ⟨hr, -, -⟩ := exec_cases hx
  obtain ⟨hkv, hks, hcfg, hin, hopnd, -⟩ := cryptoCommandFrame s t i hi hx
  have hh : t.halted = s.halted := ht.trans hr.symm
  cases t
  subst hkv hks hcfg hin hopnd hh
  rfl

/-- Settles O29: with the operand of the next command in OPND, the states before and after the crypto
command differ in the responses delivered only, which that command does not read. -/
theorem cryptoCommandsDoNotAffectLaterOnes : Obligations.CryptoCommandsDoNotAffectLaterOnes := by
  intro s t u a b operand ha hx ht hb
  obtain ⟨hr, -, hend⟩ := exec_cases hb
  obtain ⟨r, hu, -⟩ := hend.deliversOne hr
  obtain ⟨more, hmore, hother⟩ := (ignoresDelivered_exec b).exchange hb
  obtain rfl : more = [r] := List.append_cancel_left (hmore.symm.trans hu)
  have hv := hother t.outbox
  rw [eq_of_exec_crypto ha hx ht]
  exact ⟨_, r, hv, hu, rfl, rfl, rfl, rfl⟩

end Sys2Proof.Machine
end

section
/-! PROOFS, 20_memory.md: whole requests served in a row (R61, R70, R76). A running engine answers a
whole request in one step; a fatal answer halts it, and then the next request stops the run (R222,
R223). -/

namespace Sys2Proof.Machine

/-- Once started, a command always answers: no branch of it stops the machine (R84). -/
theorem exec_eq_whenStarted_next (i : Instr) (s : State) :
    ∃ command, exec i s = whenStarted i.len s command ∧ ∃ t, command = .next t := by
  cases i with
  | keyLoad n | encBlock n | decBlock n | encMsg n =>
    refine ⟨_, rfl, ?_⟩
    split_ifs <;> exact ⟨_, rfl⟩
  | decMsg n =>
    refine ⟨_, rfl, ?_⟩
    cases s.cfg.emptyDecrypt <;> split_ifs <;> exact ⟨_, rfl⟩

/-- A command whose whole operand has arrived at a running engine answers a next state (R84). -/
theorem exec_next_of_ready {i : Instr} {s : State} (hr : s.halted = false)
    (hl : s.opnd.length = i.len) : ∃ t, exec i s = .next t := by
  obtain ⟨_, hw, t, rfl⟩ := exec_eq_whenStarted_next i s
  exact ⟨t, hw.trans (whenStarted_ready hr hl)⟩

/-- A step that takes a whole request from a running engine's port answers it with one response, which
tells whether the engine is halted (R84). -/
theorem step_whole_request {s : State} {h : Word64} {operand : List Byte} {rest : List HostInput}
    (hr : Running s) (hin : s.inbox = .request (bytes64 h ++ operand) :: rest)
    (hl : operand.length = headerLen h) :
    ∃ t, step s = .next t ∧ t.inbox = rest ∧ DeliversOne s t := by
  have hs : splitRequest (bytes64 h ++ operand) = some (h, operand) := by
    rw [splitRequest_bytes64, be64_bytes64]
  have hf := fetch_of_whole_request hr hin hs hl
  cases hd : decodeHeader h with
  | error e => exact ⟨_, step_of_illegal_request hf hd, rfl, deliversOne_raiseRecoverable hr rfl⟩
  | ok i =>
    have hlen : operand.length = i.len := hl.trans (len_of_decodeHeader hd).symm
    obtain ⟨t, hx⟩ := exec_next_of_ready (s := (s.setInbox rest).setOpnd operand) hr hlen
    obtain ⟨-, -, hend⟩ := exec_cases hx
    exact ⟨t, (step_of_fetch_request hf hd).trans hx, hend.inbox_eq, hend.deliversOne hr⟩

/-- A halted engine finds a reset at its port or nothing it takes (R223). -/
theorem fetch_of_halted {s : State} (hh : s.halted = true) :
    fetch s = .stuck ∨ ∃ rest, fetch s = .reset rest := by
  unfold fetch
  simp only [hh, if_true]
  split
  · exact .inl rfl
  · exact .inr ⟨_, rfl⟩
  · split
    · exact .inr ⟨_, rfl⟩
    · exact .inl rfl

/-- A halted engine has no step while the host has issued no reset (R223). -/
theorem step_of_halted {s : State} (hh : s.halted = true) (hreset : HostInput.reset ∉ s.inbox) :
    step s = .fault .halted := by
  obtain hf | ⟨rest, hf⟩ := fetch_of_halted hh
  · simp only [step, hf]
  · obtain hin | ⟨-, bytes, hin⟩ := fetch_reset hf <;> simp [hin] at hreset

/-- Settles O15, by induction on the requests: the first step answers the first one. If it halts the
engine, the run is over, well or with the fault; otherwise the rest is served from the state after it. -/
theorem runAnswersEveryRequest : Obligations.RunAnswersEveryRequest := by
  intro requests
  induction requests with
  | nil =>
    intro s _ _ hin
    exact .inl ⟨s, rfl, hin, rfl⟩
  | cons q qs ih =>
    intro s hr hwhole hin
    obtain ⟨t, hstep, htin, r, hout, hfatal⟩ :=
      step_whole_request hr hin (hwhole q List.mem_cons_self)
    have hlen : t.outbox.length = s.outbox.length + 1 := by simp [hout]
    rw [List.length_cons, core_run_of_step_next hstep]
    cases hh : t.halted with
    | false =>
      obtain ⟨u, hrun, huin, huout⟩ | ⟨hrun, k, u, r', hk, hku, huh, huout, hlast⟩ :=
        ih t hh (fun p hp => hwhole p (List.mem_cons_of_mem q hp)) htin
      · exact .inl ⟨u, hrun, huin, by omega⟩
      · exact .inr ⟨hrun, k + 1, u, r', by omega, (core_run_of_step_next hstep).trans hku, huh,
          by omega, hlast⟩
    | true =>
      cases qs with
      | nil => exact .inl ⟨t, rfl, htin, hlen⟩
      | cons q' qs =>
        have hstuck : step t = .fault .halted := step_of_halted hh (by simp [htin])
        exact .inr ⟨core_run_of_step_fault hstuck, 1, t, r, by simp,
          core_run_of_step_next hstep, hh, hlen, by simp [hout], hfatal.mp hh⟩

end Sys2Proof.Machine
end

section
/-! PROOFS, 30_encoding.md: the fields of a header as numbers (R71 to R73), and the codes of the
statuses (R77). A request's and a response's header have one form, LEN above 24 zero bits above a
byte. -/

namespace Sys2Proof.Machine

/-- LEN is the header divided by 2^32 (R73). -/
theorem headerLen_eq_div (h : Word64) : headerLen h = h.toNat / 2 ^ 32 := by
  rw [headerLen, BitVec.extractLsb'_toNat, Nat.shiftRight_eq_div_pow]
  omega

theorem toNat_headerRsv (h : Word64) : (headerRsv h).toNat = h.toNat / 2 ^ 8 % 2 ^ 24 := by
  rw [headerRsv, BitVec.extractLsb'_toNat, Nat.shiftRight_eq_div_pow]

theorem toNat_headerOp (h : Word64) : (headerOp h).toNat = h.toNat % 2 ^ 8 := by
  rw [headerOp, BitVec.extractLsb'_toNat, Nat.shiftRight_zero]

/-- The value of a header written from a LEN that fits and a code (R71, R72). -/
theorem toNat_header {n : Nat} (hn : n < 2 ^ 32) (code : BitVec 8) :
    (BitVec.ofNat 32 n ++ 0#24 ++ code).toNat = n * 2 ^ 32 + code.toNat := by
  simp only [toNat_append_eq_add, BitVec.toNat_ofNat]
  omega

theorem toNat_encodeHeader {i : Instr} (hi : i.WellFormed) :
    (encodeHeader i).toNat = i.len * 2 ^ 32 + i.opcode.toNat :=
  toNat_header hi i.opcode

theorem toNat_responseHeader (st : Status) {n : Nat} (hn : n < 2 ^ 32) :
    (responseHeader st n).toNat = n * 2 ^ 32 + (statusCode st).toNat :=
  toNat_header hn (statusCode st)

/-- Settles O5: the code is below 2^8, so the three fields do not overlap. -/
theorem responseHeaderFields : Obligations.ResponseHeaderFields := by
  intro st n hn
  have hcode := (statusCode st).isLt
  rw [toNat_responseHeader st hn]
  exact ⟨by omega, by omega, by omega⟩

/-- Settles O6: the codes are the definition's; bit 7 is read off each. -/
theorem statusCodesAndClasses : Obligations.StatusCodesAndClasses := by
  refine ⟨rfl, rfl, rfl, rfl, rfl, rfl, rfl, rfl, fun st => ?_⟩
  cases st <;> decide

end Sys2Proof.Machine
end

section
/-! PROOFS, 30_encoding.md: decoding is the inverse of encoding. A header spells a command exactly when
its low 32 bits are the command's OP (R79), which makes it the header that command is encoded with;
the operand is what follows the 8 header bytes (R74, R75). -/

namespace Sys2Proof.Machine

/-- An OP value selects the command that has it, with the LEN it is given (R78). -/
theorem decodeOp_eq_some_iff {op : BitVec 8} {n : Nat} {i : Instr} :
    decodeOp op n = some i ↔ op = i.opcode ∧ i.len = n := by
  constructor
  · intro hop
    refine ⟨?_, len_of_decodeOp hop⟩
    unfold decodeOp at hop
    split_ifs at hop <;> cases hop <;> assumption
  · rintro ⟨rfl, rfl⟩
    cases i <;> rfl

/-- A header spells a command when its three fields are the command's (R79, R80). -/
theorem decodeHeader_eq_ok_iff_fields {h : Word64} {i : Instr} :
    decodeHeader h = .ok i ↔ headerRsv h = 0#24 ∧ headerOp h = i.opcode ∧ i.len = headerLen h := by
  rw [← decodeOp_eq_some_iff]
  unfold decodeHeader
  split
  · next hrsv => simp [hrsv]
  · next hrsv =>
    rw [not_not] at hrsv
    split
    · next hop => simp [hrsv, hop]
    · next hop => simp [hop]

/-- R79: RSV and OP together are the header's low 32 bits, and they must be the command's OP value. -/
theorem decodeHeader_eq_ok_iff {h : Word64} {i : Instr} :
    decodeHeader h = .ok i ↔ h.toNat % 2 ^ 32 = i.opcode.toNat ∧ i.len = h.toNat / 2 ^ 32 := by
  have hcode := i.opcode.isLt
  rw [decodeHeader_eq_ok_iff_fields, ← BitVec.toNat_inj, ← BitVec.toNat_inj, toNat_headerRsv,
    toNat_headerOp, headerLen_eq_div, BitVec.toNat_ofNat]
  omega

/-- The headers that spell a command are the ones well-formed commands are encoded with. -/
theorem decodeHeader_eq_ok_iff_eq_encodeHeader {h : Word64} {i : Instr} :
    decodeHeader h = .ok i ↔ i.WellFormed ∧ h = encodeHeader i := by
  rw [decodeHeader_eq_ok_iff]
  have hcode := i.opcode.isLt
  constructor
  · rintro ⟨hop, hlen⟩
    have hi : i.WellFormed := by
      have hword := h.isLt
      omega
    refine ⟨hi, BitVec.eq_of_toNat_eq ?_⟩
    rw [toNat_encodeHeader hi]
    omega
  · rintro ⟨hi, rfl⟩
    rw [toNat_encodeHeader hi]
    omega

/-- A byte string splits into a header and the bytes after it exactly when it is the header's 8 bytes
followed by them (R74). -/
theorem splitRequest_eq_some_iff {bytes operand : List Byte} {h : Word64} :
    splitRequest bytes = some (h, operand) ↔ bytes = bytes64 h ++ operand := by
  constructor
  · intro hs
    unfold splitRequest at hs
    split at hs
    · cases hs
      rw [bytes64_be64 rfl]
      rfl
    · cases hs
  · rintro rfl
    rw [splitRequest_bytes64, be64_bytes64]

/-- The byte strings that decode are exactly the encoded requests of well-formed commands. -/
theorem decode_eq_ok_iff {bytes operand : List Byte} {i : Instr} :
    decode bytes = .ok (i, operand) ↔ i.WellFormed ∧ bytes = encodeRequest i operand := by
  constructor
  · intro hdec
    obtain ⟨h, hs, hd⟩ := decode_ok hdec
    obtain ⟨hi, rfl⟩ := decodeHeader_eq_ok_iff_eq_encodeHeader.mp hd
    exact ⟨hi, splitRequest_eq_some_iff.mp hs⟩
  · rintro ⟨hi, hbytes⟩
    exact decode_of_splitRequest (splitRequest_eq_some_iff.mpr hbytes)
      (decodeHeader_eq_ok_iff_eq_encodeHeader.mpr ⟨hi, rfl⟩)

/-- Settles O2: an encoded request splits into its header, which spells its command, and its operand. -/
theorem decodeOfEncodedRequest : Obligations.DecodeOfEncodedRequest :=
  fun _ _ hi => decode_eq_ok_iff.mpr ⟨hi, rfl⟩

/-- Settles O3: the bytes are the header's, and only one header spells the command. -/
theorem decodedBytesAreTheEncoding : Obligations.DecodedBytesAreTheEncoding :=
  fun _ _ _ => decode_eq_ok_iff.mp

/-- The mask 0x00000000FFFFFFFF keeps a header's value modulo 2^32 (R79). -/
theorem and_mask_eq_iff {h x : Word64} :
    h &&& 0xFFFFFFFF#64 = x ↔ h.toNat % 2 ^ 32 = x.toNat := by
  rw [← BitVec.toNat_inj, BitVec.toNat_and, ← Nat.and_two_pow_sub_one_eq_mod]
  rfl

/-- R79's row of a command: its OP value is the match under the mask. -/
theorem decodeHeader_eq_ok_iff_mask (h : Word64) (i : Instr) :
    decodeHeader h = .ok i ↔
      h &&& 0xFFFFFFFF#64 = i.opcode.setWidth 64 ∧ i.len = h.toNat / 2 ^ 32 := by
  rw [decodeHeader_eq_ok_iff, and_mask_eq_iff, BitVec.toNat_setWidth_of_le (by decide)]

/-- Settles O4: one row of `decodeHeader_eq_ok_iff_mask` for each command. -/
theorem headerSpellsCommandByMatchAndMask : Obligations.HeaderSpellsCommandByMatchAndMask :=
  fun h n =>
    ⟨decodeHeader_eq_ok_iff_mask h (.keyLoad n), decodeHeader_eq_ok_iff_mask h (.encBlock n),
      decodeHeader_eq_ok_iff_mask h (.decBlock n), decodeHeader_eq_ok_iff_mask h (.encMsg n),
      decodeHeader_eq_ok_iff_mask h (.decMsg n)⟩

/-- Settles O1: the decoder is run on each of the eight byte strings. -/
theorem writtenOutHeadersDecode : Obligations.WrittenOutHeadersDecode := by
  unfold Obligations.WrittenOutHeadersDecode
  decide

end Sys2Proof.Machine
end

section
/-! PROOFS, 30_encoding.md: which requests a running engine starts, and its answer to each (R75, R79,
R80, R84). -/

namespace Sys2Proof.Machine

/-- The OP values assigned are 1 to 5 (R78). -/
theorem opcode_bounds (i : Instr) : 1 ≤ i.opcode.toNat ∧ i.opcode.toNat ≤ 5 := by
  cases i <;> simp [Instr.opcode]

/-- An OP of 0x00 or at least 0x06, or a set reserved bit, spells no command (R80). -/
theorem decodeHeader_error_of_illegal {h : Word64}
    (hill : h.toNat % 2 ^ 8 = 0 ∨ 6 ≤ h.toNat % 2 ^ 8 ∨ h.toNat / 2 ^ 8 % 2 ^ 24 ≠ 0) :
    ∃ e, decodeHeader h = .error e := by
  cases hd : decodeHeader h with
  | error e => exact ⟨e, rfl⟩
  | ok i =>
    obtain ⟨hop, -⟩ := decodeHeader_eq_ok_iff.mp hd
    have hassigned := opcode_bounds i
    omega

/-- A running engine takes any whole request from its port, whatever its header spells (R75). -/
theorem fetch_wholeRequest {s : State} {bytes operand : List Byte} {rest : List HostInput}
    {h : Word64} (hr : Running s) (hin : s.inbox = .request bytes :: rest)
    (hwhole : WholeRequest bytes h operand) :
    fetch s = .request h ((s.setInbox rest).setOpnd operand) := by
  obtain ⟨hbytes, hl⟩ := hwhole
  exact fetch_of_whole_request hr hin (splitRequest_eq_some_iff.mpr hbytes) hl

/-- Settles O10: no command is spelled, so the step is the recoverable error of R80. -/
theorem illegalRequestIsAnsweredAndIgnored : Obligations.IllegalRequestIsAnsweredAndIgnored := by
  intro s bytes rest h operand hr hin hwhole hill
  obtain ⟨e, hd⟩ := decodeHeader_error_of_illegal hill
  exact step_of_illegal_request (fetch_wholeRequest hr hin hwhole) hd

/-- A step that serves a request keeps nothing of its operand (R66). -/
theorem opnd_of_step_fetch_request {s s' t : State} {h : Word64} (hf : fetch s = .request h s')
    (ht : step s = .next t) : t.opnd = [] := by
  obtain ⟨hidle, -⟩ | ⟨_, hreset, -⟩ | ⟨_, _, _, -, -, rfl⟩ | ⟨_, _, i, -, -, hx⟩ := step_cases ht
  · cases hf.symm.trans hidle
  · cases hf.symm.trans hreset
  · rfl
  · obtain ⟨-, -, hend⟩ := exec_cases hx
    exact hend.opnd_eq

/-- Settles O11, by `step_whole_request`. -/
theorem everyWholeRequestGetsOneResponse : Obligations.EveryWholeRequestGetsOneResponse := by
  intro s bytes rest h operand hr hin hwhole
  have hf := fetch_wholeRequest hr hin hwhole
  obtain ⟨rfl, hl⟩ := hwhole
  obtain ⟨t, hstep, hrest, r, hout, -⟩ := step_whole_request hr hin hl
  exact ⟨t, r, hstep, hout, hrest, opnd_of_step_fetch_request hf hstep⟩

theorem step_of_fetch_malformed {s : State} {why : Refusal} (hf : fetch s = .malformed why) :
    step s = .refused why := by
  simp only [step, hf]

/-- Fewer than 8 bytes hold no whole header (R74). -/
theorem splitRequest_of_length_lt {bytes : List Byte} (hl : bytes.length < 8) :
    splitRequest bytes = none := by
  cases hs : splitRequest bytes with
  | none => rfl
  | some q =>
    have hlen := congrArg List.length (splitRequest_eq_some_iff.mp hs)
    rw [List.length_append, length_bytes64] at hlen
    omega

/-- Settles O13, by what the port finds: no header, or a header beside the wrong number of operand
bytes. -/
theorem onlyWholeRequestsStart : Obligations.OnlyWholeRequestsStart := by
  intro s bytes rest hr hin
  refine ⟨fun hlt => step_of_fetch_malformed ?_, fun h operand hbytes => ?_⟩
  · simp [fetch, hin, hr, splitRequest_of_length_lt hlt]
  · have hs := splitRequest_eq_some_iff.mpr hbytes
    refine ⟨fun hlt => step_of_fetch_malformed ?_, fun hgt => step_of_fetch_malformed ?_⟩
    · simp [fetch, hin, hr, hs, hlt]
    · simp [fetch, hin, hr, hs, hgt, hgt.not_gt]

/-- A table word of 64 bits is a header only: it gives no operand byte, so each one is zero (log 11). -/
theorem tableOperand_64 (w : Nat) :
    tableOperand 64 w = List.replicate (headerLen (tableHeader 64 w)) 0#8 := by
  refine List.eq_replicate_iff.mpr ⟨by simp [tableOperand], fun b hb => ?_⟩
  obtain ⟨k, -, rfl⟩ := List.mem_map.mp hb
  have hbig : w % 2 ^ 64 < 2 ^ (64 + 8 * k) :=
    (Nat.mod_lt w (by positivity)).trans_le (Nat.pow_le_pow_right (by decide) (Nat.le_add_right 64 _))
  rw [Nat.shiftRight_eq_zero _ _ hbig]

/-- A table word of 64 bits that decodes does so with LEN operand bytes of zero. -/
theorem decode_tableRequest_64 {w : Nat} {i : Instr} (hw : decodeTableWord 64 w = some i) :
    decode (tableRequest 64 w) = .ok (i, List.replicate i.len 0#8) := by
  unfold decodeTableWord at hw
  split at hw
  · next hdec =>
    cases hw
    obtain ⟨h, hs, hd⟩ := decode_ok hdec
    rw [tableRequest, splitRequest_bytes64, be64_bytes64] at hs
    cases hs
    rw [hdec, len_of_decodeHeader hd, tableOperand_64]
  · cases hw

/-- Settles O9: the placed request is a whole one at the head of a running engine's port, so O8's
statement tells the step. -/
theorem placedTableWordRuns : Obligations.PlacedTableWordRuns := by
  intro s w i hw
  have hdec := decode_tableRequest_64 hw
  obtain ⟨hi, -⟩ := decode_eq_ok_iff.mp hdec
  exact stepRunsTheDecodedCommand (s.withFetchWord 64 w) (tableRequest 64 w) s.inbox i _ rfl rfl hdec
    ⟨hi, List.length_replicate⟩

end Sys2Proof.Machine
end

section
/-! PROOFS, 30_encoding.md: the word a command line starts with is cut off the same way whatever operand
text follows it, so the line depends on the word only through the command it names (R81, R82). -/

namespace Sys2Proof.Machine

/-- A word that no blank, quote or comment interrupts. -/
def IsPlainWord (word : List Char) : Prop :=
  word ≠ [] ∧ ∀ c ∈ word, ¬ isBlank c ∧ c ≠ '"' ∧ c ≠ ';'

/-- The mnemonics and their aliases are plain words, and none of them is RAW (R78, R82). -/
theorem isPlainWord_of_mnemonicOf {word : List Char} {make : Nat → Instr}
    (hm : mnemonicOf word = some make) : IsPlainWord word ∧ word ≠ "RAW".toList := by
  unfold mnemonicOf at hm
  split_ifs at hm with h h h h h <;> obtain rfl | rfl := h <;> simp [IsPlainWord]

/-- What remains of a line after its first word and a space: the operand's text, without a comment and
without blanks around it (R81). -/
def operandText (rest : List Char) : List Char :=
  dropBlanks (dropBlanksRight (' ' :: stripComment false rest))

section
variable {word : List Char} (hw : IsPlainWord word)
include hw

theorem stripComment_append (rest : List Char) :
    stripComment false (word ++ rest) = word ++ stripComment false rest := by
  obtain ⟨-, hplain⟩ := hw
  induction word with
  | nil => rfl
  | cons c cs ih =>
    obtain ⟨⟨-, hquote, hsemi⟩, hcs⟩ := List.forall_mem_cons.mp hplain
    simp [stripComment, hquote, hsemi, ih hcs]

theorem dropBlanks_append (rest : List Char) : dropBlanks (word ++ rest) = word ++ rest := by
  obtain ⟨hne, hplain⟩ := hw
  obtain ⟨c, cs, rfl⟩ := List.exists_cons_of_ne_nil hne
  obtain ⟨hblank, -, -⟩ := hplain c List.mem_cons_self
  exact List.dropWhile_cons_of_neg (by simpa using hblank)

theorem dropBlanksRight_append (rest : List Char) :
    dropBlanksRight (word ++ rest) = word ++ dropBlanksRight rest := by
  obtain ⟨hne, hplain⟩ := hw
  have hword : dropBlanksRight word = word := List.rdropWhile_eq_self_iff.mpr fun hl => by
    obtain ⟨hblank, -, -⟩ := hplain _ (List.getLast_mem hl)
    simpa using hblank
  unfold dropBlanksRight dropBlanks at hword ⊢
  rw [List.reverse_append, List.dropWhile_append]
  split
  · next hrest => rw [hword, List.isEmpty_iff.mp hrest, List.reverse_nil, List.append_nil]
  · rw [List.reverse_append, List.reverse_reverse]

/-- The first word of a line ends at the space after it. -/
theorem splitWord_append {rest text : List Char} (hrest : rest <+: ' ' :: text) :
    splitWord (word ++ rest) = (word, dropBlanks rest) := by
  obtain ⟨-, hplain⟩ := hw
  have hword : ∀ c ∈ word, decide (¬ decide (isBlank c)) = true := fun c hc => by
    obtain ⟨hblank, -, -⟩ := hplain c hc
    simpa using hblank
  rw [splitWord, List.takeWhile_append_of_pos hword, List.dropWhile_append_of_pos hword]
  obtain rfl | ⟨_, rfl, -⟩ := List.prefix_cons_iff.mp hrest <;> simp

/-- A line that starts with a plain word and a space is that word and its operand text. -/
theorem splitWord_line (rest : List Char) :
    splitWord (dropBlanks (dropBlanksRight (stripComment false (word ++ ' ' :: rest)))) =
      (word, operandText rest) := by
  rw [stripComment_append hw, dropBlanksRight_append hw, dropBlanks_append hw]
  exact splitWord_append hw (List.rdropWhile_prefix _ _)

end

/-- Two words that name the same command assemble alike, whatever operand text follows. -/
theorem assembleLine_eq_of_mnemonicOf {a b : List Char} {make : Nat → Instr}
    (ha : mnemonicOf a = some make) (hb : mnemonicOf b = some make) (rest : List Char) :
    assembleLine (a ++ ' ' :: rest) = assembleLine (b ++ ' ' :: rest) := by
  obtain ⟨hplainA, hrawA⟩ := isPlainWord_of_mnemonicOf ha
  obtain ⟨hplainB, hrawB⟩ := isPlainWord_of_mnemonicOf hb
  -- Neither word is empty, so neither line is one without a command.
  have ⟨hneA, _⟩ := hplainA
  have ⟨hneB, _⟩ := hplainB
  simp only [assembleLine, splitWord_line hplainA, splitWord_line hplainB, hrawA, hrawB, ha, hb,
    if_false]

/-- Settles O55: the two words of each pair name the same command (R82). -/
theorem aliasesAssembleAsTheirCommands : Obligations.AliasesAssembleAsTheirCommands := by
  intro rest
  refine ⟨?_, ?_, ?_, ?_, ?_⟩
  · simpa using
      assembleLine_eq_of_mnemonicOf (a := "CONSTRUCT".toList) (b := "KEY_LOAD".toList) rfl rfl rest
  · simpa using
      assembleLine_eq_of_mnemonicOf (a := "ENCRYPT_BLOCK".toList) (b := "ENC_BLOCK".toList) rfl rfl rest
  · simpa using
      assembleLine_eq_of_mnemonicOf (a := "DECRYPT_BLOCK".toList) (b := "DEC_BLOCK".toList) rfl rfl rest
  · simpa using
      assembleLine_eq_of_mnemonicOf (a := "ENCRYPT".toList) (b := "ENC_MSG".toList) rfl rfl rest
  · simpa using
      assembleLine_eq_of_mnemonicOf (a := "DECRYPT".toList) (b := "DEC_MSG".toList) rfl rfl rest

end Sys2Proof.Machine
end

section
/-! PROOFS, 40_tables_and_primitives.md: the default tables, the Bit-Permutation Engine, and the
initial and final permutations (R100, R103, R119). -/

namespace Sys2Proof.Machine

/-- Settles O32: the printed tables were checked for the state after reset, part by part. -/
theorem defaultTablesAreValid : Obligations.DefaultTablesAreValid := tablesValid_fips46

/-- A number built from its bits, most significant first, has the last bit of the list as bit 0; the
fold is read from that end. -/
theorem testBit_foldr_bits {α : Type} (f : α → Bool) (l : List α) (k : Nat) :
    (l.foldr (fun p acc => 2 * acc + (f p).toNat) 0).testBit k = l[k]?.any f := by
  induction l generalizing k with
  | nil => simp
  | cons p ps ih =>
    have hp : (f p).toNat < 2 := (f p).toNat_lt
    cases k with
    | zero => cases hfp : f p <;> simp [hfp]
    | succ k =>
      rw [List.foldr_cons, Nat.testBit_add_one, List.getElem?_cons_succ, ← ih]
      congr 1
      omega

theorem getMsbD_permute {n m : Nat} (T : Vector Nat m) (v : BitVec n) {i : Nat} (hi : i < m) :
    (permute T v).getMsbD i = v.getLsbD (n - T[i]) := by
  have hpos : m - 1 - (m - 1 - i) = i := by omega
  rw [BitVec.getMsbD_eq_getLsbD, permute, BitVec.getLsbD_ofNat, List.foldl_eq_foldr_reverse,
    testBit_foldr_bits, List.getElem?_reverse (by simp; omega)]
  simp [hi, hpos, show m - 1 - i < m by omega]

/-- Settles O33: the table is read from its last entry, which gives the least significant bit. -/
theorem permuteMovesEachBit : Obligations.PermuteMovesEachBit :=
  fun _ _ T v _ hi => getMsbD_permute T v hi

/-- Two values permute alike when they agree on every position the table names. -/
theorem permute_congr {n m : Nat} {T : Vector Nat m} {v w : BitVec n}
    (h : ∀ q ∈ T.toList, v.getLsbD (n - q) = w.getLsbD (n - q)) : permute T v = permute T w := by
  apply BitVec.eq_of_getMsbD_eq
  intro i hi
  rw [getMsbD_permute T v hi, getMsbD_permute T w hi]
  exact h T[i] (by simp)

/-- A list of `n` entries that names every position `1..n` once has no room for another one. -/
theorem mem_range_of_listsEachOnce {n q : Nat} {l : List Nat} (hl : l.length = n)
    (h : listsEachOnce n l) (hq : q ∈ l) : 1 ≤ q ∧ q ≤ n := by
  have hsub : Finset.Icc 1 n ⊆ l.toFinset := by
    intro p hp
    obtain ⟨hp1, hpn⟩ := Finset.mem_Icc.mp hp
    have hcount := h ⟨p - 1, by omega⟩
    rw [Nat.sub_add_cancel hp1] at hcount
    exact List.mem_toFinset.mpr (List.count_pos_iff.mp (by omega))
  have hcard : l.toFinset.card ≤ (Finset.Icc 1 n).card := by
    simpa [hl] using l.toFinset_card_le
  have heq := Finset.eq_of_subset_of_card_le hsub hcard
  exact Finset.mem_Icc.mp (heq ▸ List.mem_toFinset.mpr hq)

/-- One table after another takes each bit from the position the first table has at the position the
second one names. -/
theorem getMsbD_permute_permute {n m k : Nat} (A : Vector Nat m) (B : Vector Nat k) (v : BitVec n)
    {i : Nat} (hi : i < k) (hB : 1 ≤ B[i] ∧ B[i] ≤ m) :
    (permute B (permute A v)).getMsbD i = v.getLsbD (n - A[B[i] - 1]) := by
  have hpos : m - B[i] = m - 1 - (B[i] - 1) := by omega
  rw [getMsbD_permute B _ hi, ← getMsbD_permute A v (by omega), BitVec.getMsbD_eq_getLsbD, hpos]
  simp [show B[i] - 1 < m by omega]

theorem permute_fp_permute_ip {T : Tables} (hT : blockTablesValid T) (v : Word64) :
    permute T.fp (permute T.ip v) = v := by
  obtain ⟨-, hfp, hinverse⟩ := hT
  apply BitVec.eq_of_getMsbD_eq
  intro i hi
  have hrange : 1 ≤ T.fp[i] ∧ T.fp[i] ≤ 64 := mem_range_of_listsEachOnce (by simp) hfp (by simp)
  have hentry : T.ip[T.fp[i] - 1] = i + 1 := by
    have hi' := hinverse ⟨i, hi⟩
    simpa [hi, show T.fp[i] - 1 < 64 by omega] using hi'
  rw [getMsbD_permute_permute T.ip T.fp v hi hrange, hentry, BitVec.getMsbD_eq_getLsbD]
  simp [hi, show 64 - (i + 1) = 63 - i by omega]

/-- Settles O34: FP undoes IP bit by bit, so IP is one-to-one on the finitely many 64-bit values and
hence onto, and its left inverse is its right inverse too. -/
theorem finalPermutationUndoesInitial : Obligations.FinalPermutationUndoesInitial := by
  intro T v hT
  obtain ⟨hblock, -⟩ := hT
  have hleft : Function.LeftInverse (permute T.fp) (permute T.ip : Word64 → Word64) :=
    permute_fp_permute_ip hblock
  have : Finite Word64 := Finite.of_equiv _ BitVec.equivFin.symm.toEquiv
  have hsurj : Function.Surjective (permute T.ip : Word64 → Word64) :=
    Finite.surjective_of_injective hleft.injective
  exact ⟨hleft v, hleft.rightInverse_of_surjective hsurj v⟩

end Sys2Proof.Machine
end

section
/-! PROOFS, 42_round_function.md: the substitution, group by group (R110, R152, R153). -/

namespace Sys2Proof.Machine

theorem toFin_sboxRow (x : BitVec 6) :
    (sboxRow x).toFin = Fin.ofNat 4 (2 * (x.toNat / 32) + x.toNat % 2) := by
  apply Fin.ext
  simp only [sboxRow, BitVec.val_toFin, toNat_append_eq_add, BitVec.extractLsb'_toNat,
    Nat.shiftRight_eq_div_pow, Fin.val_ofNat]
  omega

theorem toFin_sboxCol (x : BitVec 6) : (sboxCol x).toFin = Fin.ofNat 16 (x.toNat / 2 % 16) := by
  apply Fin.ext
  simp only [sboxCol, BitVec.val_toFin, BitVec.extractLsb'_toNat, Nat.shiftRight_eq_div_pow,
    Fin.val_ofNat]
  omega

/-- Shifting a nibble in at the least significant end moves each other one up by one place. -/
theorem nibble_shiftIn (z : BitVec 32) (x : BitVec 4) {k : Nat} (hk : k < 7) :
    (z.extractLsb' 0 28 ++ x).extractLsb' (4 * (k + 1)) 4 = z.extractLsb' (4 * k) 4 := by
  rw [BitVec.extractLsb'_append_eq_of_le (by omega)]
  apply BitVec.eq_of_getLsbD_eq
  intro i hi
  have hlow : 4 * k + i < 28 := by omega
  simp [hi, hlow, Nat.mul_succ]

/-- After shifting nibbles into a 32-bit word one by one, nibble `k` from the least significant end is
the one of the `k`-th last index. The indices are read from that end. -/
theorem nibble_foldr_shiftIn {α : Type} (f : α → BitVec 4) {l : List α} {k : Nat} (hk : k < 8)
    (hl : k < l.length) :
    BitVec.extractLsb' (4 * k) 4
      (l.foldr (fun j (z : BitVec 32) => z.extractLsb' 0 28 ++ f j) 0#32) = f l[k] := by
  induction l generalizing k with
  | nil => simp at hl
  | cons j js ih =>
    cases k with
    | zero => exact BitVec.extractLsb'_append_eq_right
    | succ k =>
      rw [List.foldr_cons, nibble_shiftIn _ _ (by omega), ih (by omega) (by simpa using hl),
        List.getElem_cons_succ]

/-- `O_j` is nibble `j` of `Z` from the most significant end (R153). -/
theorem nibble_substituteAll (T : Tables) (y : BitVec 48) (j : Fin 8) :
    (substituteAll T y).extractLsb' (28 - 4 * j.val) 4 = substitute T j (sboxGroup y j) := by
  have hplace : 28 - 4 * j.val = 4 * (7 - j.val) := by omega
  have hindex : 7 - (7 - j.val) = j.val := by omega
  rw [substituteAll, List.foldl_eq_foldr_reverse, hplace,
    nibble_foldr_shiftIn _ (by omega) (by simp; omega)]
  simp [hindex]

/-- Settles O35: Y and Z are the model's own, and each nibble of Z is one lookup. -/
theorem roundFunctionByGroups : Obligations.RoundFunctionByGroups := by
  intro T r k
  refine ⟨_, _, rfl, rfl, fun j g hg => ?_⟩
  rw [nibble_substituteAll, substitute, sbox, toFin_sboxRow, toFin_sboxCol, sboxGroup, ← hg]

end Sys2Proof.Machine
end

section
/-! PROOFS, 41_key_schedule.md: PC-1 drops the parity bits (R106, R137). -/

namespace Sys2Proof.Machine

/-- Bit `r` of byte `i` is bit `56-8i+r` of the value (R12). -/
theorem getLsbD_be64 {b : List Byte} (hb : b.length = 8) {i r : Nat} (hi : i < b.length)
    (hr : r < 8) : (be64 b).getLsbD (56 - 8 * i + r) = b[i].getLsbD r := by
  have hbyte := getElem?_bytes64 (be64 b) (hb ▸ hi)
  rw [bytes64_be64 hb, List.getElem?_eq_getElem hi, Option.some_inj] at hbyte
  simp [hbyte, hr]

/-- Keys whose bytes agree above the parity bit agree on every position but the multiples of 8. -/
theorem getLsbD_be64_eq_of_not_parity {key key' : List Byte} (hkey : key.length = 8)
    (hkey' : key'.length = 8)
    (hsame : key.map (fun b : Byte => b.toNat / 2) = key'.map (fun b : Byte => b.toNat / 2))
    {q : Nat} (hq : q ≤ 64) (hparity : q % 8 ≠ 0) :
    (be64 key).getLsbD (64 - q) = (be64 key').getLsbD (64 - q) := by
  -- Position `q` is bit `7 - q % 8` above the parity bit of byte `q / 8`.
  have hplace : 64 - q = 56 - 8 * (q / 8) + (7 - q % 8 + 1) := by omega
  have hi : q / 8 < key.length := by omega
  have hi' : q / 8 < key'.length := by omega
  have hbyte : key[q / 8].toNat / 2 = key'[q / 8].toNat / 2 := by
    simpa [hi, hi'] using congrArg (·[q / 8]?) hsame
  rw [hplace, getLsbD_be64 hkey hi (by omega), getLsbD_be64 hkey' hi' (by omega),
    ← BitVec.testBit_toNat, ← BitVec.testBit_toNat, Nat.testBit_add_one, Nat.testBit_add_one, hbyte]

/-- Settles O38: PC-1 names no multiple of 8, so the permuted keys are equal already. -/
theorem parityBitsDoNotReachTheSubkeys : Obligations.ParityBitsDoNotReachTheSubkeys := by
  intro T key key' hT hkey hkey' hsame
  obtain ⟨-, -, ⟨⟨-, hpc1⟩, -⟩, -⟩ := hT
  have hpermuted : permutedKey T key = permutedKey T key' := by
    refine permute_congr fun q hq => ?_
    obtain ⟨-, hq64, hparity⟩ := hpc1 q hq
    exact getLsbD_be64_eq_of_not_parity hkey hkey' hsame hq64 hparity
  rw [keySchedule, keySchedule, hpermuted]

end Sys2Proof.Machine
end

section
/-! PROOFS, 41_key_schedule.md: rotations within a key half add up (R131 to R134, R139). -/

namespace Sys2Proof.Machine

theorem rotl28_zero (x : KeyHalf) : rotl28 x 0 = x := by
  apply BitVec.eq_of_getMsbD_eq
  intro i hi
  simp [rotl28, BitVec.getMsbD_rotateLeft, hi, Nat.mod_eq_of_lt hi]

theorem rotl28_rotl28 (x : KeyHalf) (a b : Nat) : rotl28 (rotl28 x a) b = rotl28 x (a + b) := by
  apply BitVec.eq_of_getMsbD_eq
  intro i hi
  have hpos : (a + (b + i) % 28) % 28 = (a + b + i) % 28 := by omega
  have hlt : (b + i) % 28 < 28 := by omega
  simp [rotl28, BitVec.getMsbD_rotateLeft, hi, hlt, hpos]

/-- A rotation by the whole width changes nothing (R10). -/
theorem rotl28_28 (x : KeyHalf) : rotl28 x 28 = x :=
  calc rotl28 x 28 = rotl28 x 0 := BitVec.rotateLeft_mod_eq_rotateLeft.symm
    _ = x := rotl28_zero x

/-- The shifts of the first `i` rounds, summed (R108). Past the last entry both sides stay as they
are. -/
theorem sum_take_shifts_succ (T : Tables) (i : Nat) :
    (T.shifts.toList.take (i + 1)).sum = (T.shifts.toList.take i).sum + shiftOf T (i + 1) := by
  rw [List.take_add_one, List.sum_append, shiftOf, Nat.add_sub_cancel, List.getD_eq_getElem?_getD]
  cases T.shifts.toList[i]? <;> simp

/-- After round `i` a half is its round-0 value rotated by the sum of the shifts so far (R132). -/
theorem keyHalf_eq_rotl28_sum (T : Tables) (x : KeyHalf) (i : Nat) :
    keyHalf T x i = rotl28 x (T.shifts.toList.take i).sum := by
  induction i with
  | zero => exact (rotl28_zero x).symm
  | succ i ih => rw [keyHalf, ih, rotl28_rotl28, sum_take_shifts_succ]

/-- Settles O36: both halves of round `i + 1` by `keyHalf_eq_rotl28_sum`. -/
theorem subkeysByTotalRotation : Obligations.SubkeysByTotalRotation := by
  rintro T key i _ _ rfl rfl
  rw [keySchedule, Vector.get_ofFn, subkey, keyHalf_eq_rotl28_sum, keyHalf_eq_rotl28_sum]
  rfl

/-- Settles O37: the 16 shifts sum to 28, one whole turn. -/
theorem keyHalvesReturnAfterRound16 : Obligations.KeyHalvesReturnAfterRound16 := by
  intro T x hT
  obtain ⟨-, -, ⟨-, -, -, hsum⟩, -⟩ := hT
  have htotal : (T.shifts.toList.take 16).sum = 28 := by rw [List.take_of_length_le (by simp), hsum]
  rw [keyHalf_eq_rotl28_sum, htotal, rotl28_28]

end Sys2Proof.Machine
end

section
/-! PROOFS, 41_key_schedule.md: what KEY_LOAD does and what it leaves unchanged (R135, R136). -/

namespace Sys2Proof.Machine

theorem responseOf_ok_nil : responseOf .ok [] = ⟨0x0000000000000000#64, []⟩ := by decide

/-- Settles O39: the ready engine runs the loading arm. -/
theorem keyLoadCompletes : Obligations.KeyLoadCompletes := by
  rintro s ⟨hr, hl⟩
  rw [exec, execKeyLoad_of_eq_eight hr hl rfl, respond, responseOf_ok_nil]
  rfl

/-- Settles O40: the ready engine runs the error arm. -/
theorem keyLoadOfWrongLength : Obligations.KeyLoadOfWrongLength := by
  rintro s n ⟨hr, hl⟩ hn
  exact execKeyLoad_of_ne_eight hr hl hn

/-- Settles O31: the error arm writes neither KS nor KEY_VALID, and the loading arm is taken for LEN 8
only. -/
theorem keyLoadFrame : Obligations.KeyLoadFrame := by
  intro s t n h
  obtain ⟨-, -, ⟨-, rfl⟩ | ⟨h8, rfl⟩⟩ := execKeyLoad_cases h
  · exact ⟨rfl, rfl, rfl, rfl, ⟨_, rfl, rfl⟩, fun _ => ⟨rfl, rfl⟩⟩
  · exact ⟨rfl, rfl, rfl, rfl, ⟨responseOf .ok [], by simp, rfl⟩, fun hn => absurd h8 hn⟩

end Sys2Proof.Machine
end

section
/-! PROOFS, 43_block_core.md: the block core round by round, and why the reverse subkey order undoes it
(R170 to R174, R179). -/

namespace Sys2Proof.Machine

/-- The halves `(L_n, R_n)` after the first `n` rounds of a block (R170, R171). -/
def halvesAfter (T : Tables) (ks : SubkeyFile) (dir : Direction) (b : Word64) (n : Nat) :
    HalfBlock × HalfBlock :=
  feistelRounds T ks ((roundOrder dir).take n) (splitBlock T b)

@[simp] theorem length_roundOrder (dir : Direction) : (roundOrder dir).length = 16 := by
  cases dir <;> rfl

/-- The subkey index of round `n + 1` (R171). -/
theorem getElem_roundOrder (dir : Direction) {n : Nat} (hn : n < (roundOrder dir).length) :
    (roundOrder dir)[n] = Fin.ofNat 16 (if dir = .enc then n else 15 - n) := by
  have hn16 : n < 16 := length_roundOrder dir ▸ hn
  apply Fin.ext
  cases dir with
  | enc => simp [roundOrder, Nat.mod_eq_of_lt hn16]
  | dec => simp [roundOrder, Nat.mod_eq_of_lt (show 15 - n < 16 by omega)]

/-- Decryption takes the subkeys in the reverse order (R171, R172). -/
theorem roundOrder_dec : roundOrder .dec = (roundOrder .enc).reverse :=
  List.finRange_reverse.symm

theorem splitBlock_append (T : Tables) (b : Word64) :
    (splitBlock T b).1 ++ (splitBlock T b).2 = permute T.ip b :=
  BitVec.extractLsb'_append_extractLsb'_eq_extractLsb' rfl |>.trans BitVec.extractLsb'_eq_self

theorem feistelRounds_append (T : Tables) (ks : SubkeyFile) (first last : List (Fin 16))
    (lr : HalfBlock × HalfBlock) :
    feistelRounds T ks (first ++ last) lr = feistelRounds T ks last (feistelRounds T ks first lr) :=
  List.foldl_append

theorem halvesAfter_succ (T : Tables) (ks : SubkeyFile) (dir : Direction) (b : Word64) {n : Nat}
    (hn : n < 16) :
    halvesAfter T ks dir b (n + 1) =
      feistelRound T (ks.get (Fin.ofNat 16 (if dir = .enc then n else 15 - n)))
        (halvesAfter T ks dir b n) := by
  have hlen : n < (roundOrder dir).length := (length_roundOrder dir).symm ▸ hn
  rw [halvesAfter, List.take_add_one, List.getElem?_eq_getElem hlen, getElem_roundOrder,
    feistelRounds_append]
  rfl

theorem blockCore64_eq_joinBlock_halvesAfter (T : Tables) (ks : SubkeyFile) (dir : Direction)
    (b : Word64) : blockCore64 T ks dir b = joinBlock T (halvesAfter T ks dir b 16) := by
  rw [halvesAfter, List.take_of_length_le (by simp), blockCore64]

/-- Settles O41: the halves after `n` rounds are the two sequences. -/
theorem blockCoreByRounds : Obligations.BlockCoreByRounds := by
  intro T ks dir b
  refine ⟨fun n => (halvesAfter T ks dir (be64 b) n).1, fun n => (halvesAfter T ks dir (be64 b) n).2,
    splitBlock_append T (be64 b), fun n hn => ?_, ?_⟩
  · have hround := halvesAfter_succ T ks dir (be64 b) hn
    exact ⟨congrArg Prod.fst hround, congrArg Prod.snd hround⟩
  · exact congrArg bytes64 (blockCore64_eq_joinBlock_halvesAfter T ks dir (be64 b))

/-- A round on the swapped halves of its own result gives back the halves it started from, swapped: it
XORs the same value into the same half (R179). -/
theorem feistelRound_swap_feistelRound (T : Tables) (k : Subkey) (lr : HalfBlock × HalfBlock) :
    feistelRound T k (feistelRound T k lr).swap = lr.swap := by
  simp [feistelRound, Prod.swap]

/-- The rounds in reverse order undo the rounds, up to the swap of the halves, by induction on the
rounds: the last one of the way back undoes the first one of the way out (R179). -/
theorem feistelRounds_reverse_swap (T : Tables) (ks : SubkeyFile) (order : List (Fin 16))
    (lr : HalfBlock × HalfBlock) :
    feistelRounds T ks order.reverse (feistelRounds T ks order lr).swap = lr.swap := by
  induction order generalizing lr with
  | nil => rfl
  | cons i is ih =>
    have hback : feistelRounds T ks is.reverse (feistelRounds T ks (i :: is) lr).swap =
        (feistelRound T (ks.get i) lr).swap := ih _
    rw [List.reverse_cons, feistelRounds_append, hback]
    exact feistelRound_swap_feistelRound T (ks.get i) lr

section
variable {T : Tables} (hT : tablesValid T)
include hT

/-- The split of a block that was joined: IP undoes FP, and the final swap stays (R103, R173). -/
theorem splitBlock_joinBlock (lr : HalfBlock × HalfBlock) :
    splitBlock T (joinBlock T lr) = lr.swap := by
  obtain ⟨-, hip⟩ := finalPermutationUndoesInitial T (lr.2 ++ lr.1) hT
  rw [splitBlock, joinBlock, hip]
  exact Prod.ext BitVec.extractLsb'_append_eq_left BitVec.extractLsb'_append_eq_right

/-- The swapped halves of a block join to the block: FP undoes IP (R103). -/
theorem joinBlock_swap_splitBlock (b : Word64) : joinBlock T (splitBlock T b).swap = b := by
  obtain ⟨hfp, -⟩ := finalPermutationUndoesInitial T b hT
  exact (congrArg (permute T.fp) (splitBlock_append T b)).trans hfp

/-- Two directions whose subkey orders are each other's reverse undo each other (R179). -/
theorem blockCore64_blockCore64 (ks : SubkeyFile) {dir back : Direction}
    (hback : roundOrder back = (roundOrder dir).reverse) (b : Word64) :
    blockCore64 T ks back (blockCore64 T ks dir b) = b := by
  rw [blockCore64, blockCore64, splitBlock_joinBlock hT, hback, feistelRounds_reverse_swap,
    joinBlock_swap_splitBlock hT]

theorem blockCore_blockCore (ks : SubkeyFile) {dir back : Direction}
    (hback : roundOrder back = (roundOrder dir).reverse) {b : List Byte} (hb : b.length = 8) :
    blockCore T ks back (blockCore T ks dir b) = b := by
  rw [blockCore, blockCore, be64_bytes64, blockCore64_blockCore64 hT ks hback, bytes64_be64 hb]

end

/-- Settles O44: each direction's subkey order is the reverse of the other's. -/
theorem decryptionInvertsEncryption : Obligations.DecryptionInvertsEncryption := by
  intro T ks b hT hb
  have henc : roundOrder .enc = (roundOrder .dec).reverse := by
    rw [roundOrder_dec, List.reverse_reverse]
  exact ⟨blockCore_blockCore hT ks roundOrder_dec hb, blockCore_blockCore hT ks henc hb⟩

end Sys2Proof.Machine
end

section
/-! PROOFS, 43_block_core.md: what ENC_BLOCK and DEC_BLOCK do once a key is loaded (R175, R178). -/

namespace Sys2Proof.Machine

section
variable {s : State} {n : Nat} (hr : s.halted = false) (hl : s.opnd.length = n)
  (hk : s.keyValid = true)
include hr hl hk

/-- A block command of 8 bytes (R175, R178). -/
theorem blockCommand_of_eq_eight (dir : Direction) (hn : n = 8) : blockCommand dir n s =
    .next (respond .ok (blockCore s.cfg.tables s.ks dir s.opnd) s) := by
  subst hn
  rw [blockCommand, whenStarted_ready hr hl, if_neg (by simp [hk]), if_neg (by decide),
    memRead_all hl]
  rfl

/-- A block command of any other length (R175, R178). -/
theorem blockCommand_of_ne_eight (dir : Direction) (hn : n ≠ 8) :
    blockCommand dir n s = .next (raiseFatal .fatalBlockLength s) := by
  rw [blockCommand, whenStarted_ready hr hl, if_neg (by simp [hk]), if_pos hn]

end

theorem responseOf_ok_blockCore (T : Tables) (ks : SubkeyFile) (dir : Direction) (b : List Byte) :
    responseOf .ok (blockCore T ks dir b) = ⟨0x0000000800000000#64, blockCore T ks dir b⟩ := by
  rw [responseOf, length_blockCore]
  rfl

/-- Settles O42: both commands run the completing arm of `blockCommand`. -/
theorem blockCommandsComplete : Obligations.BlockCommandsComplete := by
  rintro s ⟨hr, hl⟩ hk
  have hrun (dir : Direction) : blockCommand dir 8 s =
      .next { s with opnd := [], outbox := s.outbox ++
        [⟨0x0000000800000000#64, blockCore s.cfg.tables s.ks dir s.opnd⟩] } := by
    rw [blockCommand_of_eq_eight hr hl hk dir rfl, respond, responseOf_ok_blockCore]
    rfl
  exact ⟨hrun .enc, hrun .dec⟩

/-- Settles O43: both commands run the fatal arm of `blockCommand`. -/
theorem blockLengthViolationHalts : Obligations.BlockLengthViolationHalts := by
  rintro s n ⟨hr, hl⟩ hk hn
  exact ⟨blockCommand_of_ne_eight hr hl hk .enc hn, blockCommand_of_ne_eight hr hl hk .dec hn⟩

end Sys2Proof.Machine
end

section
/-! PROOFS, 44_message_codec.md: padding, and its removal (R190 to R193). -/

namespace Sys2Proof.Machine

@[simp] theorem length_pad (m : List Byte) : (pad m).length = m.length + padLength m.length := by
  simp [pad]

/-- A padded message is one block more than the whole blocks of the message (R191). -/
theorem length_pad_eq_mul (m : List Byte) : (pad m).length = 8 * (m.length / 8 + 1) := by
  rw [length_pad, padLength]
  omega

theorem length_pad_mod_eight (m : List Byte) : (pad m).length % 8 = 0 := by
  rw [length_pad_eq_mul, Nat.mul_mod_right]

/-- Settles O45: `length_pad_eq_mul` gives the padded length, and the rest is arithmetic on it. -/
theorem paddingFillsToTheNextBlock : Obligations.PaddingFillsToTheNextBlock := by
  rintro m p rfl
  have hlen := length_pad_eq_mul m
  obtain ⟨hp, hp'⟩ := padLength_bounds m.length
  refine ⟨rfl, hp, hp', length_pad m, hlen, ?_, ?_⟩
  · omega
  · intro k hk hlt
    omega

/-- The model's `unpad`, once the last byte is known. -/
theorem unpad_of_getLast? {q : List Byte} {b : Byte} (hb : q.getLast? = some b) :
    unpad q = if b.toNat < 1 ∨ 8 < b.toNat ∨ q.length < b.toNat then q
      else q.take (q.length - b.toNat) := by
  rw [unpad, hb]

/-- Settles O46: the bytes that stay are bytes of `q`, since at least the last byte goes. -/
theorem unpadLooksAtTheLastByteOnly : Obligations.UnpadLooksAtTheLastByteOnly := by
  intro q b
  rw [unpad_of_getLast? List.getLast?_concat, List.length_append, List.length_singleton]
  split
  · rfl
  · exact List.take_append_of_le_length (by omega)

/-- The last byte of a padded message is the number of its padding bytes (R190). -/
theorem getLast?_pad (m : List Byte) :
    (pad m).getLast? = some (BitVec.ofNat 8 (padLength m.length)) := by
  have hpos : padLength m.length ≠ 0 := by have := padLength_bounds m.length; omega
  simp [pad, List.getLast?_replicate, hpos]

/-- Unpadding undoes padding: the last byte is the number of bytes that were added (R190, R192). -/
theorem unpad_pad (m : List Byte) : unpad (pad m) = m := by
  have hp := padLength_bounds m.length
  have hbyte : (BitVec.ofNat 8 (padLength m.length)).toNat = padLength m.length :=
    Nat.mod_eq_of_lt (by omega)
  rw [unpad_of_getLast? (getLast?_pad m), hbyte, length_pad, if_neg (by omega),
    Nat.add_sub_cancel, pad, List.take_left]

/-- Unpadding drops at most one block (R193). -/
theorem le_length_unpad (q : List Byte) : q.length - 8 ≤ (unpad q).length := by
  cases hq : q.getLast? with
  | none => simp [List.getLast?_eq_none_iff.mp hq]
  | some b =>
    rw [unpad_of_getLast? hq]
    split
    · omega
    · rw [List.length_take]
      omega

end Sys2Proof.Machine
end

section
/-! PROOFS, 44_message_codec.md: `ecb` block by block, and that ENC_MSG's writes to RES build it
(R194 to R197). -/

namespace Sys2Proof.Machine

theorem block_zero (m : List Byte) : block m 0 = m.take 8 := rfl

theorem block_succ (m : List Byte) (j : Nat) : block m (j + 1) = block (m.drop 8) j := by
  rw [block, block, slice, slice, List.drop_drop, Nat.mul_succ, Nat.add_comm]

section
variable (T : Tables) (ks : SubkeyFile) (dir : Direction)

/-- The first of `k + 1` results and what is left of them (R194). -/
theorem take_ecbBlocks_succ (k : Nat) (q : List Byte) :
    (ecbBlocks T ks dir (k + 1) q).take 8 = blockCore T ks dir (q.take 8) :=
  List.take_left' rfl

theorem drop_ecbBlocks_succ (k : Nat) (q : List Byte) :
    (ecbBlocks T ks dir (k + 1) q).drop 8 = ecbBlocks T ks dir k (q.drop 8) :=
  List.drop_left' rfl

/-- Each block is transformed alone, in its place (R194). -/
theorem block_ecbBlocks {j k : Nat} (hj : j < k) (q : List Byte) :
    block (ecbBlocks T ks dir k q) j = blockCore T ks dir (block q j) := by
  induction k generalizing j q with
  | zero => exact absurd hj (Nat.not_lt_zero j)
  | succ k ih =>
    cases j with
    | zero => rw [block_zero, block_zero, take_ecbBlocks_succ]
    | succ j => rw [block_succ, block_succ, drop_ecbBlocks_succ, ih (Nat.lt_of_succ_lt_succ hj)]

theorem block_ecb {q : List Byte} {j : Nat} (hj : 8 * j + 8 ≤ q.length) :
    block (ecb T ks dir q) j = blockCore T ks dir (block q j) :=
  block_ecbBlocks T ks dir (by omega) q

theorem length_ecb {q : List Byte} (hq : q.length % 8 = 0) :
    (ecb T ks dir q).length = q.length := by
  rw [ecb, length_ecbBlocks]
  omega

/-- The length of an encrypted message (R196). -/
theorem length_ecb_pad (m : List Byte) :
    (ecb T ks dir (pad m)).length = 8 * (m.length / 8 + 1) :=
  (length_ecb T ks dir (length_pad_mod_eight m)).trans (length_pad_eq_mul m)

/-- The blocks taken in offset order: the last of `k + 1` is block `k` (R194). -/
theorem ecbBlocks_succ_eq_append (k : Nat) (q : List Byte) :
    ecbBlocks T ks dir (k + 1) q = ecbBlocks T ks dir k q ++ blockCore T ks dir (block q k) := by
  induction k generalizing q with
  | zero => exact List.append_nil _
  | succ k ih => rw [ecbBlocks, ih, ← List.append_assoc, ← block_succ]; rfl

end

/-- Settles O47: `length_ecb` and `block_ecb`. -/
theorem ecbTransformsEachBlockAlone : Obligations.EcbTransformsEachBlockAlone :=
  fun T ks dir _ hq => ⟨length_ecb T ks dir hq, fun _ hj => block_ecb T ks dir hj⟩

/-- Settles O48: both ciphertext blocks are the block core of the same block. -/
theorem equalBlocksEncryptEqually : Obligations.EqualBlocksEncryptEqually := by
  intro T ks m m' j j' hj hj' heq
  rw [block_ecb T ks .enc hj, block_ecb T ks .enc hj', heq]

/-- A MemWrite at the end of the bytes written before it puts `v` after them (R13). -/
theorem memWrite_append {done rest : List Byte} {off : Nat} (hoff : done.length = off)
    (v : List Byte) : memWrite (done ++ rest) off v = done ++ v ++ rest.drop v.length := by
  subst hoff
  rw [memWrite, List.take_left, List.drop_length_add_append]

/-- What RES holds after ENC_MSG's first `j` writes: the first `j` blocks, and bytes not written yet. -/
theorem foldl_memWrite_blocks (T : Tables) (ks : SubkeyFile) (pm : List Byte) {j k : Nat}
    (hjk : j ≤ k) :
    (List.range j).foldl
        (fun res blk => memWrite res (8 * blk) (blockCore T ks .enc (block pm blk)))
        (newRes (8 * k)) =
      ecbBlocks T ks .enc j pm ++ newRes (8 * (k - j)) := by
  induction j with
  | zero => rfl
  | succ j ih =>
    have hleft : 8 * (k - j) - 8 = 8 * (k - (j + 1)) := by omega
    rw [List.range_succ, List.foldl_append, ih (by omega), List.foldl_cons, List.foldl_nil,
      memWrite_append (length_ecbBlocks T ks .enc j pm), ← ecbBlocks_succ_eq_append,
      length_blockCore, newRes, List.drop_replicate, hleft, newRes]

/-- ENC_MSG's loop computes `ecb` of the padded message (R195, R196). -/
theorem encryptBlocks_pad (T : Tables) (ks : SubkeyFile) (m : List Byte) :
    encryptBlocks T ks (pad m) ((m.length + padLength m.length) / 8) = ecb T ks .enc (pad m) := by
  rw [encryptBlocks, foldl_memWrite_blocks T ks (pad m) le_rfl, Nat.sub_self, ecb, length_pad]
  exact List.append_nil _

/-- Block by block, two directions that undo each other on a block undo each other on `k` of them
(R179, R194). -/
theorem ecbBlocks_ecbBlocks {T : Tables} (hT : tablesValid T) (ks : SubkeyFile)
    {dir back : Direction} (hback : roundOrder back = (roundOrder dir).reverse) {k : Nat}
    {q : List Byte} (hq : q.length = 8 * k) :
    ecbBlocks T ks back k (ecbBlocks T ks dir k q) = q := by
  induction k generalizing q with
  | zero => exact (List.length_eq_zero_iff.mp hq).symm
  | succ k ih =>
    have hfirst : (q.take 8).length = 8 := by rw [List.length_take]; omega
    have hrest : (q.drop 8).length = 8 * k := by rw [List.length_drop]; omega
    rw [ecbBlocks, take_ecbBlocks_succ, drop_ecbBlocks_succ, blockCore_blockCore hT ks hback hfirst,
      ih hrest, List.take_append_drop]

/-- Decryption of whole blocks gives back what was encrypted (R179, R194). -/
theorem ecb_dec_ecb_enc {T : Tables} (hT : tablesValid T) (ks : SubkeyFile) {q : List Byte}
    (hq : q.length % 8 = 0) : ecb T ks .dec (ecb T ks .enc q) = q := by
  rw [ecb, length_ecb T ks .enc hq]
  exact ecbBlocks_ecbBlocks hT ks roundOrder_dec (by omega)

end Sys2Proof.Machine
end

section
/-! PROOFS, 44_message_codec.md: what ENC_MSG and DEC_MSG do once a key is loaded, one lemma per case of
their tests (R195 to R203). -/

namespace Sys2Proof.Machine

section
variable {s : State} {n : Nat} (hr : s.halted = false) (hl : s.opnd.length = n)
  (hk : s.keyValid = true)
include hr hl hk

/-- ENC_MSG above the limit (R195). -/
theorem execEncMsg_of_limit_lt (hn : s.cfg.maxMsgLen < n) :
    execEncMsg n s = .next (raiseRecoverable .errLengthLimit s) := by
  rw [execEncMsg, whenStarted_ready hr hl, if_neg (by simp [hk]), if_pos hn]

/-- ENC_MSG within the limit (R195, R196). -/
theorem execEncMsg_of_le_limit (hn : n ≤ s.cfg.maxMsgLen) : execEncMsg n s =
    .next (respond .ok (ecb s.cfg.tables s.ks .enc (pad s.opnd)) s) := by
  subst hl
  rw [execEncMsg, whenStarted_ready hr rfl, if_neg (by simp [hk]), if_neg (Nat.not_lt.mpr hn),
    memRead_all rfl, encryptBlocks_pad]

/-- DEC_MSG above the limit (R199). -/
theorem execDecMsg_of_limit_lt (hn : s.cfg.maxMsgLen < n) :
    execDecMsg n s = .next (raiseRecoverable .errLengthLimit s) := by
  rw [execDecMsg, whenStarted_ready hr hl, if_neg (by simp [hk]), if_pos hn]

/-- DEC_MSG within the limit, of a partial block (R199). -/
theorem execDecMsg_of_partial_block (hn : n ≤ s.cfg.maxMsgLen) (hpart : n % 8 ≠ 0) :
    execDecMsg n s = .next (raiseFatal .fatalMsgLength s) := by
  rw [execDecMsg, whenStarted_ready hr hl, if_neg (by simp [hk]), if_neg (Nat.not_lt.mpr hn),
    if_pos hpart]

/-- DEC_MSG of nothing, when that is fatal (R203). -/
theorem execDecMsg_of_eq_zero_fatal (hn : n = 0) (he : s.cfg.emptyDecrypt = .fatal) :
    execDecMsg n s = .next (raiseFatal .fatalEmptyInput s) := by
  subst hn
  simp [execDecMsg, whenStarted_ready hr hl, hk, he]

/-- DEC_MSG of nothing, when that is allowed (R203). -/
theorem execDecMsg_of_eq_zero_returnEmpty (hn : n = 0) (he : s.cfg.emptyDecrypt = .returnEmpty) :
    execDecMsg n s = .next (respond .ok [] s) := by
  subst hn
  simp [execDecMsg, whenStarted_ready hr hl, hk, he]

/-- DEC_MSG within the limit, of at least one block and whole blocks only (R199, R200). -/
theorem execDecMsg_of_whole_blocks (hn : n ≤ s.cfg.maxMsgLen) (hwhole : n % 8 = 0) (hpos : 8 ≤ n) :
    execDecMsg n s = .next (respond .ok (unpad (ecb s.cfg.tables s.ks .dec s.opnd)) s) := by
  rw [execDecMsg, whenStarted_ready hr hl, if_neg (by simp [hk]), if_neg (Nat.not_lt.mpr hn),
    if_neg (by omega), if_neg (by omega), memRead_all hl, decryptMessage_eq]

end

/-- The response of a completed command: LEN above 32 zero bits (R72). -/
theorem responseOf_ok (res : List Byte) :
    responseOf .ok res = ⟨BitVec.ofNat 32 res.length ++ 0x00000000#32, res⟩ := by
  rw [responseOf, responseHeader, statusCode, BitVec.append_assoc]
  rfl

/-- Settles O49: the completing arm of ENC_MSG, with the length of its result. -/
theorem encMsgCompletes : Obligations.EncMsgCompletes := by
  rintro s n ⟨hr, rfl⟩ hk hn
  have hlen := length_ecb_pad s.cfg.tables s.ks .enc s.opnd
  refine ⟨_, rfl, hlen, by omega, by omega, ?_⟩
  rw [exec, execEncMsg_of_le_limit hr rfl hk hn, respond, responseOf_ok, hlen]
  rfl

/-- Settles O50: the completing arm of DEC_MSG; unpadding drops at most one block. -/
theorem decMsgCompletes : Obligations.DecMsgCompletes := by
  rintro s n ⟨hr, rfl⟩ hk hn hwhole hpos
  have hlen := length_ecb s.cfg.tables s.ks .dec hwhole
  refine ⟨_, rfl, hlen ▸ le_length_unpad _, hlen ▸ length_unpad_le _, ?_⟩
  rw [exec, execDecMsg_of_whole_blocks hr rfl hk hn hwhole hpos, respond, responseOf_ok]
  rfl

/-- Settles O54: the ciphertext is whole blocks within the limit, so DEC_MSG completes, and its two
operations undo ENC_MSG's, the last one first. -/
theorem messageRoundTrip : Obligations.MessageRoundTrip := by
  rintro s ⟨hT, -, -⟩ hr hk hn
  have hlen := length_ecb_pad s.cfg.tables s.ks .enc s.opnd
  have hdec : unpad (ecb s.cfg.tables s.ks .dec (ecb s.cfg.tables s.ks .enc (pad s.opnd))) =
      s.opnd := by
    rw [ecb_dec_ecb_enc hT s.ks (length_pad_mod_eight _), unpad_pad]
  refine ⟨_, _, _, _, execEncMsg_of_le_limit hr rfl hk (by omega), rfl,
    execDecMsg_of_whole_blocks hr rfl hk ?_ (by omega) (by omega), ?_, hr⟩
  · rw [respond_cfg]
    omega
  · simp [hdec, responseOf_ok]

/-- A response to a request without operand leaves OPND as it was. -/
theorem respond_of_opnd_eq_nil {s : State} (h : s.opnd = []) (st : Status) (res : List Byte) :
    respond st res s = s.pushResponse (responseOf st res) := by
  rw [respond, ← h]
  rfl

/-- Settles O51, by the setting of EMPTY_DECRYPT: OPND is empty before the command as after it. -/
theorem decMsgOfNothing : Obligations.DecMsgOfNothing := by
  rintro s ⟨hr, hl⟩ hk
  have hopnd : s.opnd = [] := List.length_eq_zero_iff.mp hl
  constructor <;> intro he
  · rw [exec, execDecMsg_of_eq_zero_fatal hr hl hk rfl he, raiseFatal, respond_of_opnd_eq_nil hopnd]
    rfl
  · rw [exec, execDecMsg_of_eq_zero_returnEmpty hr hl hk rfl he, respond_of_opnd_eq_nil hopnd]
    rfl

/-- Settles O52: the fatal arm of DEC_MSG. -/
theorem decMsgOfPartialBlockHalts : Obligations.DecMsgOfPartialBlockHalts := by
  rintro s n ⟨hr, hl⟩ hk hn hpart
  exact execDecMsg_of_partial_block hr hl hk hn hpart

/-- Settles O53: both commands run their recoverable arm. -/
theorem messageAboveTheLimit : Obligations.MessageAboveTheLimit := by
  rintro s n ⟨hr, hl⟩ hk hn
  exact ⟨execEncMsg_of_limit_lt hr hl hk hn, execDecMsg_of_limit_lt hr hl hk hn⟩

end Sys2Proof.Machine
end

section
/-! PROOFS, 60_exceptions.md: the status a request is answered with (R225). An illegal header is refused
before any command; then each command tests in R225's order, and the first test that holds gives the
status. -/

namespace Sys2Proof.Machine

/-- One response with status `st` is delivered from `s` to `t`; only an OK one has result bytes (R76),
and HALTED is set exactly by a fatal one (R221, R222). -/
def AnswersWith (st : Status) (s t : State) : Prop :=
  ∃ res, t.outbox = s.outbox ++ [responseOf st res] ∧ (st ≠ .ok → res = []) ∧ t.halted = isFatal st

theorem answersWith_raiseRecoverable {s : State} {code : Status} (hr : s.halted = false)
    (hcode : isFatal code = false) : AnswersWith code s (raiseRecoverable code s) :=
  ⟨[], rfl, fun _ => rfl, hr.trans hcode.symm⟩

theorem answersWith_raiseFatal {s : State} {code : Status} (hcode : isFatal code = true) :
    AnswersWith code s (raiseFatal code s) :=
  ⟨[], rfl, fun _ => rfl, hcode.symm⟩

theorem answersWith_respond_ok {s : State} (hr : s.halted = false) (res : List Byte) :
    AnswersWith .ok s (respond .ok res s) :=
  ⟨res, rfl, fun hne => absurd rfl hne, hr⟩

/-- R225 from its line 2 on: the first test that holds of a command with the given OP and LEN. -/
def firstErrorStatus (s : State) (op len : Nat) : Status :=
  if op = 1 then (if len ≠ 8 then .errKeyLength else .ok)
  else if s.keyValid = false then .errNoKey
  else if (op = 4 ∨ op = 5) ∧ s.cfg.maxMsgLen < len then .errLengthLimit
  else if (op = 2 ∨ op = 3) ∧ len ≠ 8 then .fatalBlockLength
  else if op = 5 ∧ len % 8 ≠ 0 then .fatalMsgLength
  else if op = 5 ∧ len = 0 ∧ s.cfg.emptyDecrypt = .fatal then .fatalEmptyInput
  else .ok

/-- A command that answers does so with the status of the first test that holds: the tests its own
meaning makes are R225's with its OP. -/
theorem exec_answersWith_firstErrorStatus {i : Instr} {s t : State} (h : exec i s = .next t) :
    AnswersWith (firstErrorStatus s i.opcode.toNat i.len) s t := by
  cases i with
  | keyLoad n =>
    obtain ⟨hr, -, ⟨hn, rfl⟩ | ⟨rfl, rfl⟩⟩ := execKeyLoad_cases h
    · simpa [firstErrorStatus, Instr.opcode, Instr.len, hn] using answersWith_raiseRecoverable hr rfl
    · exact answersWith_respond_ok (s := (s.setKs _).setKeyValid) hr []
  | encBlock n | decBlock n =>
    obtain ⟨hr, -, ⟨hk, rfl⟩ | ⟨hk, hn, rfl⟩ | ⟨hk, rfl, rfl⟩⟩ := blockCommand_cases h
    · simpa [firstErrorStatus, Instr.opcode, hk] using answersWith_raiseRecoverable hr rfl
    · simpa [firstErrorStatus, Instr.opcode, Instr.len, hk, hn] using answersWith_raiseFatal rfl
    · simpa [firstErrorStatus, Instr.opcode, Instr.len, hk] using answersWith_respond_ok hr _
  | encMsg n =>
    obtain ⟨hr, -, ⟨hk, rfl⟩ | ⟨hk, hn, rfl⟩ | ⟨hk, hn, rfl⟩⟩ := execEncMsg_cases h
    · simpa [firstErrorStatus, Instr.opcode, hk] using answersWith_raiseRecoverable hr rfl
    · simpa [firstErrorStatus, Instr.opcode, Instr.len, hk, hn] using
        answersWith_raiseRecoverable hr rfl
    · simpa [firstErrorStatus, Instr.opcode, Instr.len, hk, hn.not_gt] using
        answersWith_respond_ok hr _
  | decMsg n =>
    obtain ⟨hr, -, ⟨hk, rfl⟩ | ⟨hk, hn, rfl⟩ | ⟨hk, hn, hpart, rfl⟩ | ⟨hk, rfl, he, rfl⟩ |
      ⟨hk, rfl, he, rfl⟩ | ⟨hk, hn, hwhole, hpos, rfl⟩⟩ := execDecMsg_cases h
    · simpa [firstErrorStatus, Instr.opcode, hk] using answersWith_raiseRecoverable hr rfl
    · simpa [firstErrorStatus, Instr.opcode, Instr.len, hk, hn] using
        answersWith_raiseRecoverable hr rfl
    · simpa [firstErrorStatus, Instr.opcode, Instr.len, hk, hn.not_gt, hpart] using
        answersWith_raiseFatal rfl
    · simpa [firstErrorStatus, Instr.opcode, Instr.len, hk, he] using answersWith_raiseFatal rfl
    · simpa [firstErrorStatus, Instr.opcode, Instr.len, hk, he] using answersWith_respond_ok hr _
    · have hne : n ≠ 0 := by omega
      simpa [firstErrorStatus, Instr.opcode, Instr.len, hk, hn.not_gt, hwhole, hne] using
        answersWith_respond_ok hr _

/-- Every OP value from 1 to 5 is a command's, with any LEN (R78). -/
theorem exists_instr_of_opcode {op : Nat} (hlow : 1 ≤ op) (hhigh : op ≤ 5) (n : Nat) :
    ∃ i : Instr, op = i.opcode.toNat ∧ i.len = n := by
  interval_cases op
  · exact ⟨.keyLoad n, rfl, rfl⟩
  · exact ⟨.encBlock n, rfl, rfl⟩
  · exact ⟨.decBlock n, rfl, rfl⟩
  · exact ⟨.encMsg n, rfl, rfl⟩
  · exact ⟨.decMsg n, rfl, rfl⟩

/-- A header with RSV zero and an assigned OP spells a command (R79). -/
theorem decodeHeader_ok_of_legal {h : Word64}
    (hlegal : ¬(h.toNat / 2 ^ 8 % 2 ^ 24 ≠ 0 ∨ h.toNat % 2 ^ 8 < 1 ∨ 5 < h.toNat % 2 ^ 8)) :
    ∃ i, decodeHeader h = .ok i ∧ h.toNat % 2 ^ 8 = i.opcode.toNat ∧ h.toNat / 2 ^ 32 = i.len := by
  obtain ⟨i, hop, hlen⟩ :=
    exists_instr_of_opcode (op := h.toNat % 2 ^ 8) (by omega) (by omega) (h.toNat / 2 ^ 32)
  exact ⟨i, decodeHeader_eq_ok_iff.mpr ⟨by omega, hlen⟩, hop, hlen.symm⟩

/-- Settles O12: an illegal header is refused, and a legal one spells a command, which answers with the
first test that holds. -/
theorem firstErrorConditionWins : Obligations.FirstErrorConditionWins := by
  rintro s bytes rest h operand _ _ _ hr hin hwhole rfl rfl rfl
  have hf := fetch_wholeRequest hr hin hwhole
  by_cases hill : h.toNat / 2 ^ 8 % 2 ^ 24 ≠ 0 ∨ h.toNat % 2 ^ 8 < 1 ∨ 5 < h.toNat % 2 ^ 8
  · obtain ⟨e, hd⟩ := decodeHeader_error_of_illegal (h := h) (by omega)
    exact ⟨_, _, [], step_of_illegal_request hf hd, rfl, fun _ => rfl, hr, (if_pos hill).symm⟩
  · obtain ⟨i, hd, hop, hlen⟩ := decodeHeader_ok_of_legal hill
    have hopnd : operand.length = i.len := hwhole.2.trans (len_of_decodeHeader hd).symm
    obtain ⟨t, hx⟩ := exec_next_of_ready (s := (s.setInbox rest).setOpnd operand) hr hopnd
    have hanswer := exec_answersWith_firstErrorStatus hx
    rw [← hop, ← hlen] at hanswer
    obtain ⟨res, hout, hres, hhalted⟩ := hanswer
    exact ⟨t, _, res, (step_of_fetch_request hf hd).trans hx, hout, hres, hhalted,
      (if_neg hill).symm⟩

end Sys2Proof.Machine
end

section
/-! PROOFS, 60_exceptions.md: what an error changes (R221, R222), a crypto command without a key (R224),
and an engine that is halted or has no request (R223, R236). -/

namespace Sys2Proof.Machine

/-- A command whose response is no OK one has raised an error (R220). -/
theorem CommandEnd.error_cases {i : Instr} {s t : State} {r : Response} (h : CommandEnd i s t)
    (hout : t.outbox = s.outbox ++ [r]) (hst : r.header.toNat % 2 ^ 8 ≠ 0) :
    ∃ code, r = responseOf code [] ∧ ((isFatal code = false ∧ t = raiseRecoverable code s) ∨
      (isFatal code = true ∧ t = raiseFatal code s)) := by
  have hok {res : List Byte} (hr : s.outbox ++ [responseOf .ok res] = s.outbox ++ [r]) : False := by
    obtain rfl : responseOf .ok res = r := by simpa using hr
    exact hst (status_responseOf .ok res)
  cases h with
  | recoverable code hcode => exact ⟨code, by simpa using hout.symm, .inl ⟨hcode, rfl⟩⟩
  | fatal code hcode => exact ⟨code, by simpa using hout.symm, .inr ⟨hcode, rfl⟩⟩
  | keyLoaded => exact (hok hout).elim
  | result res => exact (hok hout).elim

/-- A step whose response is no OK one has taken a request from the port of a running engine and raised
an error (R220). -/
theorem step_error_cases {s t : State} {r : Response} (h : step s = .next t)
    (hout : t.outbox = s.outbox ++ [r]) (hst : r.header.toNat % 2 ^ 8 ≠ 0) :
    ∃ hd s' code, fetch s = .request hd s' ∧ r = responseOf code [] ∧
      ((isFatal code = false ∧ t = raiseRecoverable code s') ∨
        (isFatal code = true ∧ t = raiseFatal code s')) := by
  obtain ⟨-, rfl⟩ | ⟨rest, -, rfl⟩ | ⟨hd, s', _, hf, -, rfl⟩ | ⟨hd, s', i, hf, -, hx⟩ := step_cases h
  · simp at hout
  · simp at hout
  · obtain ⟨-, _, _, _, -, -, -, rfl⟩ := fetch_request hf
    exact ⟨hd, _, _, hf, by simpa using hout.symm, .inl ⟨rfl, rfl⟩⟩
  · obtain ⟨-, -, hend⟩ := exec_cases hx
    obtain ⟨-, _, _, _, -, -, -, rfl⟩ := fetch_request hf
    obtain ⟨code, hr, hraise⟩ := hend.error_cases hout hst
    exact ⟨hd, _, code, hf, hr, hraise⟩

/-- The header of an error's response is its code: LEN and RSV are zero (R72). -/
theorem toNat_header_responseOf_nil (code : Status) :
    (responseOf code []).header.toNat = (statusCode code).toNat := by
  rw [responseOf, List.length_nil, toNat_responseHeader code (by decide), Nat.zero_mul, Nat.zero_add]

theorem statusCode_le_four {code : Status} (hcode : isFatal code = false) :
    (statusCode code).toNat ≤ 4 := by
  cases code <;> revert hcode <;> decide

/-- The three fatal codes (R222). -/
theorem statusCode_of_fatal {code : Status} (hcode : isFatal code = true) :
    (statusCode code).toNat = 0x80 ∨ (statusCode code).toNat = 0x81 ∨
      (statusCode code).toNat = 0x82 := by
  cases code <;> revert hcode <;> decide

/-- Settles O20: the step raised an error, not a fatal one by its code, on the state with the request
taken. -/
theorem recoverableErrorChangesNoState : Obligations.RecoverableErrorChangesNoState := by
  intro s t r h hout hlow hhigh
  obtain ⟨_, _, code, hf, rfl, hraise⟩ := step_error_cases h hout (by omega)
  obtain ⟨hr, _, _, _, -, -, -, rfl⟩ := fetch_request hf
  rw [status_responseOf] at hhigh
  obtain ⟨hcode, rfl⟩ | ⟨hcode, -⟩ := hraise
  · have hheader := toNat_header_responseOf_nil code
    exact ⟨hheader ▸ statusCode_le_four hcode, rfl, rfl, rfl, rfl, hr, rfl⟩
  · exact absurd ((isFatal_iff code).mp hcode) (by omega)

/-- Settles O21: the step raised an error, a fatal one by its code, on the state with the request
taken. -/
theorem fatalErrorSetsOnlyHalted : Obligations.FatalErrorSetsOnlyHalted := by
  intro s t r h hout hfatal
  obtain ⟨_, _, code, hf, rfl, hraise⟩ := step_error_cases h hout (by omega)
  obtain ⟨-, _, _, _, -, -, -, rfl⟩ := fetch_request hf
  rw [status_responseOf] at hfatal
  obtain ⟨hcode, -⟩ | ⟨hcode, rfl⟩ := hraise
  · exact absurd (statusCode_le_four hcode) (by omega)
  · have hheader := toNat_header_responseOf_nil code
    exact ⟨hheader ▸ statusCode_of_fatal hcode, rfl, rfl, rfl, rfl, rfl⟩

/-- Settles O22: the command stops at its key test, before it looks at LEN. -/
theorem cryptoCommandWithoutKey : Obligations.CryptoCommandWithoutKey := by
  rintro s i hi ⟨hr, hl⟩ hk
  exact exec_crypto_of_unkeyed hr hl hk hi

/-- Settles O14: the port is found empty. -/
theorem idleEngineKeepsItsState : Obligations.IdleEngineKeepsItsState := by
  intro s hr hin
  exact step_of_fetch_idle (by simp [fetch, hin, hr])

/-- Settles O19: no command starts while HALTED, and a halted engine takes nothing but a reset, from one
of the two places ruled out. -/
theorem haltedEngineHasNoStep : Obligations.HaltedEngineHasNoStep := by
  refine fun s hh => ⟨fun i => ?_, fun hfirst hsecond => ?_⟩
  · obtain ⟨command, hw⟩ := exec_eq_whenStarted i s
    exact hw.trans (whenStarted_halted hh)
  · obtain hf | ⟨rest, hf⟩ := fetch_of_halted hh
    · simp only [step, hf]
    · obtain hin | ⟨-, bytes, hin⟩ := fetch_reset hf
      · exact absurd hin (hfirst rest)
      · exact absurd hin (hsecond bytes rest)

end Sys2Proof.Machine
end

section
/-! PROOFS, 70_reset_and_hazards.md: the reset signal is the only way back to HALTED = 0 or KEY_VALID = 0
(R251). -/

namespace Sys2Proof.Machine

/-- A halted engine steps by taking a reset or not at all (R223). -/
theorem fetch_reset_of_step_of_halted {s t : State} (hh : s.halted = true) (h : step s = .next t) :
    fetch s = .reset t.inbox := by
  obtain hstuck | ⟨rest, hreset⟩ := fetch_of_halted hh
  · simp [step, hstuck] at h
  · cases (step_of_fetch_reset hreset).symm.trans h
    exact hreset

/-- Settles O18: a halted engine steps by a reset only, and of the writers of KEY_VALID a KEY_LOAD sets
it. -/
theorem onlyResetClearsAFlag : Obligations.OnlyResetClearsAFlag := by
  rintro s t h (⟨hh, -⟩ | ⟨hk, hk'⟩)
  · exact fetch_reset (fetch_reset_of_step_of_halted hh h)
  · obtain ⟨-, hkept⟩ | ⟨_, _, -, -, -, -, hloaded⟩ | hreset := onlyKeyLoadWritesSubkeys s t h
    · exact absurd (hkept.trans hk) (by simp [hk'])
    · exact absurd hloaded (by simp [hk'])
    · exact hreset

end Sys2Proof.Machine
end
